-- ==== Sys2Proof/Word.lean ====
section
/-! DEFINITION. The plain data every other file speaks of: bytes, line levels, pulse symbols and their segments. -/

namespace Sys2Proof

/-- One payload byte (spec/00_scope.md R9, spec/20_memory.md R51). -/
abbrev Byte := BitVec 8

/-- A payload: a byte buffer (spec/20_memory.md R50). -/
abbrev Payload := List Byte

/-- A duration field of a symbol, `DUR_W = 15` bits of ticks (spec/30_encoding.md R74). -/
abbrev Ticks := BitVec 15

/-- A line level (spec/30_encoding.md R71). -/
inductive Level where
  | low
  | high
deriving DecidableEq, Repr, Inhabited

/-- One (duration, level) pair of a pulse symbol (spec/00_scope.md R13, "segment"). -/
structure Segment where
  duration : Ticks
  level : Level
deriving DecidableEq, Repr, Inhabited

/-- A pulse symbol: two segments, four fields (spec/30_encoding.md R70). -/
structure Symbol where
  duration0 : Ticks
  level0 : Level
  duration1 : Ticks
  level1 : Level
deriving DecidableEq, Repr, Inhabited

end Sys2Proof
end

