-- ==== Sys2Proof/Syntax.lean ====
section
/-! DEFINITION. The operations of spec/opcode_table.json, one constructor a row. -/

namespace Sys2Proof

/-- One request to the machine: a block request (spec/30_encoding.md R77) or a host call (R86). The flag field of an
opcode byte is no operand: it is the register FLAGS (R81). -/
inductive Instr where
  /-- `STEP cap` with the payload presented (spec/30_encoding.md R78). -/
  | step (cap : Nat) (payload : List (BitVec 8))
  /-- `RESET` (spec/30_encoding.md R79). -/
  | reset
  /-- `setPixelMasked(mask, index, r, g, b)`, the SET command (spec/44_command_encoder.md R181). -/
  | set (mask index r g b : BitVec 8)
  /-- `fill(r, g, b)`, the FILL command (spec/44_command_encoder.md R183). -/
  | fill (r g b : BitVec 8)
  /-- `setRandom(mask, index, r, g, b)`, the RAND command (spec/44_command_encoder.md R184). -/
  | rand (mask index r g b : BitVec 8)
  /-- `setPixelColor(index, r, g, b)`, a pseudo-operation (spec/44_command_encoder.md R182). -/
  | setPixelColor (index r g b : BitVec 8)
  /-- `setFlags(flagByte)` (spec/44_command_encoder.md R180). -/
  | setFlags (flagByte : BitVec 8)
  /-- `sendRaw(payload)`, the payload present or absent (spec/45_transmission_controller.md R202). -/
  | sendRaw (payload : Option (List (BitVec 8)))
  /-- `begin()` (spec/45_transmission_controller.md R200). -/
  | hostBegin
  /-- `end()` (spec/45_transmission_controller.md R201). -/
  | hostEnd
  /-- `construct(pin, TB)` (spec/70_reset_and_hazards.md R250). -/
  | construct (pin : BitVec 32) (tb : BitVec 8)
deriving DecidableEq, Repr

end Sys2Proof
end

