-- ==== Sys2Proof/WellFormed.lean ====
section
/-! DEFINITION. The requests an implementation's bus can carry: the width of cap's field, and the check that a STEP's cap
fits it. `exec` is defined on all operands: a cap above MAX_BATCH faults whether it fits the field or not. -/

namespace Sys2Proof

/-- The width of cap's bus field, `ceil(log2(MAX_BATCH + 1))` bits (spec/30_encoding.md R78): as many bits as MAX_BATCH
has. -/
def capWidth (maxBatch : Nat) : Nat := if maxBatch = 0 then 0 else maxBatch.log2 + 1

/-- A cap fits its bus field (spec/30_encoding.md R78). -/
def fitsCapField (maxBatch cap : Nat) : Bool := decide (cap < 2 ^ capWidth maxBatch)

/-- The request can be made on an implementation with this MAX_BATCH. The host calls are made in software, and R78 gives a
payload's length no width, so cap's field is the one limit. -/
def Instr.wellFormed (maxBatch : Nat) : Instr → Bool
  | .step cap _ => fitsCapField maxBatch cap
  | .reset => true
  | .set _ _ _ _ _ => true
  | .fill _ _ _ => true
  | .rand _ _ _ _ _ => true
  | .setPixelColor _ _ _ _ => true
  | .setFlags _ => true
  | .sendRaw _ => true
  | .hostBegin => true
  | .hostEnd => true
  | .construct _ _ => true

end Sys2Proof
end

