-- ==== Sys2Proof/Decode.lean ====
section
/-! DEFINITION. Reading a request from bytes, and writing it. The first byte selects the operation: the spec's op bit
for STEP and RESET (spec/30_encoding.md R77), the spec's opcode byte for SET, FILL and RAND (R81), and bytes of the
model's own for the host calls that have no encoding in the spec (log 1). Operands follow in the order of the call. -/

namespace Sys2Proof

/-- Why bytes are no request. -/
inductive DecodeError where
  /-- There is no byte to read. -/
  | noBytes
  /-- The first byte selects no operation. -/
  | unknownSelector (b : Byte)
  /-- The operand bytes end too early. -/
  | truncated
deriving DecidableEq, Repr

/-- The operation a first byte selects. -/
inductive Selector where
  | step | reset | set | fill | rand | setPixelColor | setFlags | sendRaw | sendAbsent
  | hostBegin | hostEnd | construct
deriving DecidableEq, Repr

/-- A row of the selector table: the first byte selects `selector` where `byte &&& mask = pattern`. -/
structure SelectorRow where
  pattern : Byte
  mask : Byte
  selector : Selector
deriving DecidableEq, Repr

/-- The rows whose bits the spec gives: op (spec/30_encoding.md R77) in bit 0 of a byte whose other bits are 0, and the
command kinds in bits 7..3 (R81). -/
def specRows : List SelectorRow :=
  [⟨0x00, 0xFF, .step⟩, ⟨0x01, 0xFF, .reset⟩,
   ⟨0x30, 0xF8, .set⟩, ⟨0x18, 0xF8, .fill⟩, ⟨0x48, 0xF8, .rand⟩]

/-- The rows of the host calls, whose bytes are the model's own (DESIGN CHOICE, log 1). -/
def hostRows : List SelectorRow :=
  [⟨0x80, 0xFF, .setPixelColor⟩, ⟨0x81, 0xFF, .setFlags⟩, ⟨0x82, 0xFF, .sendRaw⟩,
   ⟨0x83, 0xFF, .hostBegin⟩, ⟨0x84, 0xFF, .hostEnd⟩, ⟨0x85, 0xFF, .construct⟩, ⟨0x86, 0xFF, .sendAbsent⟩]

/-- The whole selector table. -/
def selectorTable : List SelectorRow := specRows ++ hostRows

/-- A first byte matches a row. -/
def SelectorRow.matches (row : SelectorRow) (b : Byte) : Bool := b &&& row.mask == row.pattern

/-- The operation a first byte selects, if any. -/
def selectorOf (b : Byte) : Option Selector :=
  (selectorTable.find? fun row => row.matches b).map SelectorRow.selector

/-! ### Block requests on the bus (spec/30_encoding.md R77 to R79) -/

/-- A block request as an implementation's bus carries it: cap in a field of `capWidth` bits (R78), and the payload with
its length. -/
inductive BusRequest (maxBatch : Nat) where
  | step (cap : BitVec (capWidth maxBatch)) (payload : Payload)
  | reset
deriving DecidableEq, Repr

/-- The operation code of a block request (R77). -/
def BusRequest.op {maxBatch : Nat} : BusRequest maxBatch → BitVec 1
  | .step _ _ => 0
  | .reset => 1

/-- The operation a block request asks for (R77). -/
def BusRequest.instr {maxBatch : Nat} : BusRequest maxBatch → Instr
  | .step cap payload => .step cap.toNat payload
  | .reset => .reset

/-- The block request for an operation; `none` for a STEP whose cap does not fit its field, and for a host call, which
never reaches the block as one. -/
def busRequest (maxBatch : Nat) : Instr → Option (BusRequest maxBatch)
  | .step cap payload =>
    if fitsCapField maxBatch cap then some (.step (BitVec.ofNat (capWidth maxBatch) cap) payload) else none
  | .reset => some .reset
  | .set _ _ _ _ _ => none
  | .fill _ _ _ => none
  | .rand _ _ _ _ _ => none
  | .setPixelColor _ _ _ _ => none
  | .setFlags _ => none
  | .sendRaw _ => none
  | .hostBegin => none
  | .hostEnd => none
  | .construct _ _ => none

/-! ### The model's transport (log 1) -/

/-- A number of any size, seven bits a byte, the least significant first, the top bit set in every byte but the last
(log 1). -/
def readNumber : List Byte → Option (Nat × List Byte)
  | [] => none
  | b :: rest =>
    if b.toNat < 128 then some (b.toNat, rest)
    else
      match readNumber rest with
      | none => none
      | some (n, rest) => some (b.toNat - 128 + 128 * n, rest)

/-- The bytes of a number below `128 ^ (more + 1)`: at most `more` bytes, then the last. -/
def numberBytes : Nat → Nat → List Byte
  | 0, n => [BitVec.ofNat 8 n]
  | more + 1, n =>
    if n < 128 then [BitVec.ofNat 8 n] else BitVec.ofNat 8 (128 + n % 128) :: numberBytes more (n / 128)

/-- The bytes of a number. -/
def writeNumber (n : Nat) : List Byte := numberBytes n.log2 n

/-- pin's 32-bit transport field, least significant byte first (log 1). -/
def readField : List Byte → Option (Nat × List Byte)
  | a :: b :: c :: d :: rest =>
    some (a.toNat + 256 * (b.toNat + 256 * (c.toNat + 256 * d.toNat)), rest)
  | _ => none

/-- The bytes of a 32-bit transport field. -/
def writeField (n : Nat) : List Byte :=
  [BitVec.ofNat 8 n, BitVec.ofNat 8 (n / 256), BitVec.ofNat 8 (n / 65536), BitVec.ofNat 8 (n / 16777216)]

/-- A byte buffer: its length, then its bytes (log 1). -/
def readBuffer (bytes : List Byte) : Option (Payload × List Byte) :=
  match readNumber bytes with
  | none => none
  | some (n, rest) => if n ≤ rest.length then some (rest.take n, rest.drop n) else none

/-- The bytes of a byte buffer. -/
def writeBuffer (p : Payload) : List Byte := writeNumber p.length ++ p

/-- STEP's operands: cap, then the payload (spec/30_encoding.md R78). -/
def readStep (bytes : List Byte) : Option (Instr × List Byte) :=
  match readNumber bytes with
  | none => none
  | some (cap, rest) =>
    match readBuffer rest with
    | none => none
    | some (p, rest) => some (.step cap p, rest)

/-- construct's operands: pin, then TB (spec/30_encoding.md R86). -/
def readConstruct (bytes : List Byte) : Option (Instr × List Byte) :=
  match readField bytes with
  | some (pin, tb :: rest) => some (.construct (BitVec.ofNat 32 pin) tb, rest)
  | _ => none

/-- sendRaw's operand, where a buffer is present. -/
def readSendRaw (bytes : List Byte) : Option (Instr × List Byte) :=
  match readBuffer bytes with
  | none => none
  | some (p, rest) => some (.sendRaw (some p), rest)

/-- The operands of the selected operation, in the order of the call (spec/30_encoding.md R86); `none` where the bytes
end too early. -/
def readOperands : Selector → List Byte → Option (Instr × List Byte)
  | .step, bytes => readStep bytes
  | .reset, bytes => some (.reset, bytes)
  | .set, mask :: index :: r :: g :: b :: rest => some (.set mask index r g b, rest)
  | .set, _ => none
  | .fill, r :: g :: b :: rest => some (.fill r g b, rest)
  | .fill, _ => none
  | .rand, mask :: index :: r :: g :: b :: rest => some (.rand mask index r g b, rest)
  | .rand, _ => none
  | .setPixelColor, index :: r :: g :: b :: rest => some (.setPixelColor index r g b, rest)
  | .setPixelColor, _ => none
  | .setFlags, f :: rest => some (.setFlags f, rest)
  | .setFlags, _ => none
  | .sendRaw, bytes => readSendRaw bytes
  | .sendAbsent, bytes => some (.sendRaw none, bytes)
  | .hostBegin, bytes => some (.hostBegin, bytes)
  | .hostEnd, bytes => some (.hostEnd, bytes)
  | .construct, bytes => readConstruct bytes

/-- The request at the head of the bytes, and the bytes after it; or why there is none. -/
def decode : List Byte → Except DecodeError (Instr × List Byte)
  | [] => .error .noBytes
  | b :: rest =>
    match selectorOf b with
    | none => .error (.unknownSelector b)
    | some sel =>
      match readOperands sel rest with
      | none => .error .truncated
      | some answer => .ok answer

/-- An opcode byte: the kind in bits 7..3 and the flag field in bits 2..0 (spec/30_encoding.md R81). -/
def opcodeByte (kind : BitVec 5) (flags : BitVec 3) : Byte := kind ++ flags

/-- The two fields of an opcode byte (spec/30_encoding.md R81). -/
def opcodeFields (b : Byte) : BitVec 5 × BitVec 3 := (b.extractLsb' 3 5, b.extractLsb' 0 3)

/-- The SET kind (spec/30_encoding.md R81). -/
def kindSet : BitVec 5 := 0b00110#5

/-- The FILL kind (spec/30_encoding.md R81). -/
def kindFill : BitVec 5 := 0b00011#5

/-- The RAND kind (spec/30_encoding.md R81). -/
def kindRand : BitVec 5 := 0b01001#5

/-- The first byte of a request, where FLAGS holds `flags`: the flag field of an opcode byte is FLAGS
(spec/30_encoding.md R81, log 2). -/
def firstByte (flags : BitVec 3) : Instr → Byte
  | .step _ _ => 0x00
  | .reset => 0x01
  | .set _ _ _ _ _ => opcodeByte kindSet flags
  | .fill _ _ _ => opcodeByte kindFill flags
  | .rand _ _ _ _ _ => opcodeByte kindRand flags
  | .setPixelColor _ _ _ _ => 0x80
  | .setFlags _ => 0x81
  | .sendRaw (some _) => 0x82
  | .sendRaw none => 0x86
  | .hostBegin => 0x83
  | .hostEnd => 0x84
  | .construct _ _ => 0x85

/-- The operand bytes of a request. -/
def operandBytes : Instr → List Byte
  | .step cap p => writeNumber cap ++ writeBuffer p
  | .reset => []
  | .set mask index r g b => [mask, index, r, g, b]
  | .fill r g b => [r, g, b]
  | .rand mask index r g b => [mask, index, r, g, b]
  | .setPixelColor index r g b => [index, r, g, b]
  | .setFlags f => [f]
  | .sendRaw (some p) => writeBuffer p
  | .sendRaw none => []
  | .hostBegin => []
  | .hostEnd => []
  | .construct pin tb => writeField pin.toNat ++ [tb]

/-- The bytes of a request, where FLAGS holds `flags`. -/
def encode (flags : BitVec 3) (i : Instr) : List Byte := firstByte flags i :: operandBytes i

/-- Bytes of the longest request whose operand words are zeros (SET: the opcode byte and five arguments). -/
def longestZeroRequest : Nat := 6

/-- The bytes of an instruction whose bits are `w`, least significant byte first, then zeros. -/
def tableBytes (nbits w : Nat) : List Byte :=
  (List.range ((nbits + 7) / 8)).map (fun i => BitVec.ofNat 8 (w >>> (8 * i)))
    ++ List.replicate longestZeroRequest 0

/-- The request that bits numbered as spec/opcode_table.json numbers them decode to. -/
def decodeTableWord (nbits w : Nat) : Option Instr :=
  match decode (tableBytes nbits w) with
  | .ok (i, _) => some i
  | .error _ => none

/-- The bytes of `tableBytes` that the decoder takes for its request (all of them where it takes none). -/
def tableRequest (nbits w : Nat) : List Byte :=
  match decode (tableBytes nbits w) with
  | .ok (_, rest) => (tableBytes nbits w).take ((tableBytes nbits w).length - rest.length)
  | .error _ => tableBytes nbits w

end Sys2Proof
end

