-- ==== Sys2Proof/Config.lean ====
section
/-! DEFINITION. What an implementation fixes, and the free values. A constant with no body is open: nothing in Lean
can evaluate it, so a statement about it holds whatever it is. -/

namespace Sys2Proof

/-- The six protocol ratios, one configuration record (spec/00_scope.md R8 `RATIOS`). -/
structure Ratios where
  t0h : Nat
  t0l : Nat
  t1h : Nat
  t1l : Nat
  prePktL : Nat
  interPktH : Nat
deriving DecidableEq, Repr

/-- The implementation's parameters (spec/00_scope.md R8): the batch bound, the payload bound and the ratios. -/
structure Impl where
  maxBatch : Nat
  maxPayload : Nat
  ratios : Ratios
deriving DecidableEq, Repr

/-- Which agent makes the next move, and, for the engine, which move (spec/60_exceptions.md R234;
spec/45_transmission_controller.md R206 to R212). -/
inductive Turn where
  /-- The host goes on: it makes its next call, or looks again at the call it holds in. -/
  | host
  /-- The engine invokes STEP for its packet, offering `cap` slots (R206, R207). -/
  | invoke (cap : Nat)
  /-- The engine puts the next written segment on the line (R210). -/
  | send
  /-- The engine puts the line to the transmission's idle level (R211). -/
  | settle
  /-- The engine raises the done event (R209). -/
  | done
  /-- The transmission fails (R212). -/
  | fail
deriving DecidableEq, Repr, Inhabited

namespace Config

/-- The default timebase (spec/00_scope.md R8). -/
def defaultTimebase : Byte := 70

/-- MAX_BATCH is open but at least 1 (spec/00_scope.md R8): this is how far above 1 it lies. Log 7. -/
opaque extraBatch : Nat

/-- MAX_PAYLOAD is open but at least 6 (spec/00_scope.md R8): this is how far above 6 it lies. Log 7. -/
opaque extraPayload : Nat

/-- `MAX_BATCH`, the largest capacity a STEP may offer (spec/00_scope.md R8). -/
def maxBatch : Nat := extraBatch + 1

/-- `MAX_PAYLOAD`, the longest payload the block admits (spec/00_scope.md R8). -/
def maxPayload : Nat := extraPayload + 6

/-- `TICK_PERIOD`, open (spec/00_scope.md R8): no rule of the block depends on it. Log 8. -/
opaque tickPeriod : Nat

/-- Free value: who moves next (spec/93_implementation_defined.md I11, I14). Log 3. -/
opaque freeTurn : Nat → Turn

/-- Free value: whether an enable, a disable or an allocation fails (spec/93_implementation_defined.md I13). Log 4. -/
opaque freeFail : Nat → Bool

/-- Free value: the content of end()'s dummy transmission (spec/93_implementation_defined.md I6). Log 5. -/
opaque freeDummy : Nat → List Symbol

/-- Free value: the line level and the idle level after construction (spec/93_implementation_defined.md I7). Log 6. -/
opaque freeLevel : Nat → Level

end Config

end Sys2Proof
end

