-- ==== Sys2Proof/Machine/Timing.lean ====
section
/-! DEFINITION. The TimingProfile and the four symbols (spec/40_timing_profile.md), the codes and the 32-bit word of a
symbol (spec/30_encoding.md), and the map back from a symbol to what it stands for. -/

namespace Sys2Proof.Machine

/-- The TimingProfile: every value a construction derives from TB and RATIOS (spec/10_state.md R29), in ticks. -/
structure Profile where
  t0h : Nat
  t0l : Nat
  t1h : Nat
  t1l : Nat
  leadD0 : Nat
  endD0 : Nat
deriving DecidableEq, Repr

/-- The documented ratios (spec/40_timing_profile.md R103). -/
def defaultRatios : Ratios := ⟨1, 1, 3, 1, 1, 7⟩

/-- The profile of a timebase and ratios (spec/40_timing_profile.md R101, R102). -/
def profileOf (tb : Byte) (r : Ratios) : Profile where
  t0h := tb.toNat * r.t0h
  t0l := tb.toNat * r.t0l
  t1h := tb.toNat * r.t1h
  t1l := tb.toNat * r.t1l
  leadD0 := tb.toNat * r.prePktL - 1
  endD0 := tb.toNat * r.interPktH - 1

/-- A duration fits its field and is positive: `1 .. 2^DUR_W - 1` (spec/40_timing_profile.md R107). -/
def durationOk (d : Nat) : Bool := decide (1 ≤ d ∧ d ≤ 32767)

/-- Every duration of the profile is positive and fits its field. -/
def Profile.ok (p : Profile) : Bool :=
  durationOk p.t0h && durationOk p.t0l && durationOk p.t1h && durationOk p.t1l
    && durationOk p.leadD0 && durationOk p.endD0

/-- A construction with this timebase and these ratios is admitted (spec/40_timing_profile.md R100, R107). -/
def configOk (tb : Byte) (r : Ratios) : Bool := decide (2 ≤ tb.toNat) && (profileOf tb r).ok

/-- A duration field of `d` ticks. -/
def ticksOf (d : Nat) : Ticks := BitVec.ofNat 15 d

/-- `LEAD_SYM` (spec/40_timing_profile.md R104). -/
def Profile.leadSym (p : Profile) : Symbol := ⟨ticksOf p.leadD0, .low, 1, .low⟩

/-- `END_SYM` (spec/40_timing_profile.md R105). -/
def Profile.endSym (p : Profile) : Symbol := ⟨ticksOf p.endD0, .high, 1, .high⟩

/-- `BIT0_SYM` (spec/40_timing_profile.md R106). -/
def Profile.bit0Sym (p : Profile) : Symbol := ⟨ticksOf p.t0h, .high, ticksOf p.t0l, .low⟩

/-- `BIT1_SYM` (spec/40_timing_profile.md R106). -/
def Profile.bit1Sym (p : Profile) : Symbol := ⟨ticksOf p.t1h, .high, ticksOf p.t1l, .low⟩

/-- The symbol of one bit (spec/41_bit_encoder.md R123). -/
def Profile.bitSym (p : Profile) (bit : Bool) : Symbol := if bit then p.bit1Sym else p.bit0Sym

/-- The code of a level: LOW 0, HIGH 1 (spec/30_encoding.md R71). -/
def levelCode : Level → BitVec 1
  | .low => 0
  | .high => 1

/-- The level of a code. -/
def levelOfCode (c : BitVec 1) : Level := if c = 0 then .low else .high

/-- The 32-bit word of a symbol (spec/30_encoding.md R73). -/
def symbolWord (s : Symbol) : BitVec 32 :=
  levelCode s.level1 ++ s.duration1 ++ levelCode s.level0 ++ s.duration0

/-- The symbol of a 32-bit word (spec/30_encoding.md R73). -/
def symbolOfWord (w : BitVec 32) : Symbol where
  duration0 := w.extractLsb' 0 15
  level0 := levelOfCode (w.extractLsb' 15 1)
  duration1 := w.extractLsb' 16 15
  level1 := levelOfCode (w.extractLsb' 31 1)

/-- The two segments of a symbol, in the order the line holds them (spec/30_encoding.md R72). -/
def segmentsOf (s : Symbol) : List Segment := [⟨s.duration0, s.level0⟩, ⟨s.duration1, s.level1⟩]

/-- The segments of a sequence of symbols, with no gap (spec/30_encoding.md R72). -/
def waveOf (syms : List Symbol) : List Segment := syms.flatMap segmentsOf

/-- How many ticks a sequence of segments holds the line (spec/70_reset_and_hazards.md R261). -/
def lineTicks : List Segment → Nat
  | [] => 0
  | seg :: rest => seg.duration.toNat + lineTicks rest

/-- What a symbol of the block stands for (spec/30_encoding.md R76). -/
inductive SymbolClass where
  | lead
  | ending
  | bit (b : Bool)
deriving DecidableEq, Repr

/-- The classification of spec/30_encoding.md R76: by `level0`, then by `level1`, then by `duration0`. -/
def Profile.classify (p : Profile) (s : Symbol) : Option SymbolClass :=
  if s = p.leadSym then some .lead
  else if s = p.endSym then some .ending
  else if s = p.bit1Sym then some (.bit true)
  else if s = p.bit0Sym then some (.bit false)
  else none

/-- Eight bits to a byte, most significant first (spec/20_memory.md R54). -/
def byteOfBits (bits : List Bool) : Byte := BitVec.ofNat 8 (bits.foldl (fun n b => 2 * n + b.toNat) 0)

/-- The bytes of a bit sequence, eight bits each; `n` is how many bytes to read. -/
def bytesOfBits : Nat → List Bool → Payload
  | 0, _ => []
  | n + 1, bits => byteOfBits (bits.take 8) :: bytesOfBits n (bits.drop 8)

/-- The bit a class stands for, if it is a bit. -/
def SymbolClass.bitOf : SymbolClass → Option Bool
  | .bit b => some b
  | _ => none

/-- The test oracle of spec/30_encoding.md R76: a packet's symbols back to the payload's `n` bytes. -/
def Profile.readPacket (p : Profile) (n : Nat) (syms : List Symbol) : Payload :=
  bytesOfBits n ((syms.filterMap p.classify).filterMap SymbolClass.bitOf)

end Sys2Proof.Machine
end

