-- ==== Sys2Proof/Machine/State.lean ====
section
/-! DEFINITION. The whole state of the machine: the block, the host-side collaborators and the engine at its
interface, and the environment's choices, all plain data. -/

namespace Sys2Proof.Machine

/-- `st`, the EncoderState (spec/10_state.md R22). The 2-bit code 0b11 is unreachable and has no constructor. -/
inductive EncoderState where
  | leading
  | data
  | ending
deriving DecidableEq, Repr

/-- The fault register's codes (spec/60_exceptions.md R220). -/
inductive FaultCode where
  | none
  | configInvalid
  | allocFail
  | capOutOfRange
  | emptyPayload
  | payloadTooLong
  | payloadChanged
  | hwFail
  | endInFlight
  | resetInFlight
deriving DecidableEq, Repr

/-- The status a STEP returns (spec/10_state.md R31). -/
inductive Status where
  | paused
  | complete
deriving DecidableEq, Repr

/-- A STEP's response (spec/30_encoding.md R78). -/
structure Response where
  n : Nat
  status : Status
deriving DecidableEq, Repr

/-- The block's own state (spec/10_state.md R22 to R26). -/
structure Block where
  /-- EncoderState (R22). -/
  st : EncoderState
  /-- BitEncoder progress (R23). -/
  bk : Nat
  /-- SymbolEmitter progress (R24). -/
  se : Nat
  /-- Packet latch (R26). -/
  pkt : Option (List (BitVec 8))
deriving DecidableEq, Repr

/-- The block's state after construction and after RESET (spec/10_state.md R41, R42). -/
def Block.initial : Block := ⟨.leading, 0, 0, none⟩

/-- A host call that holds (spec/60_exceptions.md R234). -/
inductive HostWait where
  /-- sendRaw waits for the packet in flight, and then sends `payload` (spec/45_transmission_controller.md R203). -/
  | sendRaw (payload : List (BitVec 8))
  /-- end() waits for its dummy transmission (spec/45_transmission_controller.md R201). -/
  | dummyDone
deriving DecidableEq, Repr

/-- What the engine transmits (spec/45_transmission_controller.md R206, R201). -/
inductive TxSource where
  | packet (payload : List (BitVec 8))
  | dummy
deriving DecidableEq, Repr

/-- How far a transmission has come (spec/45_transmission_controller.md R208, R209). -/
inductive TxPhase where
  /-- STEPs are still to be invoked for the packet. -/
  | stepping
  /-- Every symbol has been written; not all have been sent. -/
  | draining
  /-- All symbols are sent and the line is at the idle level; the done event is due. -/
  | idled
deriving DecidableEq, Repr

/-- The engine's present transmission; `idle` is the idle level in force for it (spec/45_transmission_controller.md R211). -/
structure Transmission where
  source : TxSource
  phase : TxPhase
  idle : Level
deriving DecidableEq, Repr

/-- The machine's state. INVENTORY.md lists each field's rule and reset value. -/
structure State where
  /-- The construction value `pin`, never read (spec/10_state.md R30). -/
  pin : BitVec 32
  /-- The timebase TB (spec/10_state.md R28). -/
  tb : BitVec 8
  /-- The TimingProfile (spec/10_state.md R29). -/
  profile : Profile
  /-- MAX_BATCH, MAX_PAYLOAD and RATIOS (spec/00_scope.md R8), fixed. -/
  impl : Impl
  /-- The block's own state (spec/10_state.md R22 to R26). -/
  blk : Block
  /-- The fault register (spec/10_state.md R27). -/
  fault : FaultCode
  /-- The destination slots the last STEP wrote (spec/20_memory.md R53). -/
  dst : List Symbol
  /-- The last STEP's response (spec/10_state.md R31). -/
  resp : Option Response
  /-- FLAGS (spec/10_state.md R35). -/
  flags : BitVec 3
  /-- begun (spec/10_state.md R37). -/
  begun : Bool
  /-- in_flight (spec/10_state.md R38). -/
  inFlight : Bool
  /-- idle_level (spec/10_state.md R39). -/
  idleLevel : Level
  /-- line (spec/10_state.md R40). -/
  line : Level
  /-- The host call in progress, if it holds (spec/60_exceptions.md R234). -/
  wait : Option HostWait
  /-- The engine's transmission (spec/45_transmission_controller.md R206). -/
  tx : Option Transmission
  /-- Written and not yet sent (spec/45_transmission_controller.md R208, R210). -/
  buf : List Segment
  /-- What the line has carried (spec/45_transmission_controller.md R210); the model's record, log 17. -/
  wave : List Segment
  /-- The bytes of the requests not yet taken; the model's own, log 1. -/
  inbox : List (BitVec 8)
  /-- The schedule: who moves next; the model's own, log 3. -/
  turns : List Turn
  /-- What the next failable actions answer, `true` for a failure; the model's own, log 4. -/
  fails : List Bool
  /-- The contents of the next dummy transmissions; the model's own, log 5. -/
  dummies : List (List Symbol)
  /-- How many free values have been drawn; the model's own, log 32. -/
  seq : Nat
deriving DecidableEq, Repr

/-- Why the machine stops. -/
inductive Fault where
  /-- Raised by every meaning but construct's, and by every turn, in a state whose fault register is not NONE: "neither the
  block nor its host-side collaborators takes any further transition" (spec/60_exceptions.md R221). Safe: it is the
  stuck state of the spec. -/
  | stuck (code : FaultCode)
  /-- Raised by STEP where its progress registers break the preconditions of spec/41_bit_encoder.md R120 and
  spec/42_symbol_emitter.md R140, so that the pseudocode reaches the line it marks "not reached"
  (spec/43_waveform_encoder.md R151). Safe: no state that a run reaches raises it. Log 25. -/
  | progressOutOfRange
deriving DecidableEq, Repr

/-- Why a request is refused. -/
inductive Refusal where
  /-- An instruction whose arm has no meaning; no arm answers with it. Safe. -/
  | notModelled (mnemonic : String)
  /-- Raised by the host's turn where the next bytes are no request of the model's transport. Safe. Log 28. -/
  | undecoded (why : DecodeError)
deriving DecidableEq, Repr

/-- The machine right after `construct(pin, 70)` has succeeded (spec/10_state.md R41, spec/70_reset_and_hazards.md R250), with
no request placed and every choice of the environment free. `pin` is 0 (DESIGN CHOICE, log 11); `idleLevel` and `line` are
free values (log 6). -/
def State.reset : State where
  pin := 0
  tb := Config.defaultTimebase
  profile := profileOf Config.defaultTimebase defaultRatios
  impl := ⟨Config.maxBatch, Config.maxPayload, defaultRatios⟩
  blk := Block.initial
  fault := .none
  dst := []
  resp := none
  flags := 0
  begun := false
  inFlight := false
  idleLevel := Config.freeLevel 0
  line := Config.freeLevel 1
  wait := none
  tx := none
  buf := []
  wave := []
  inbox := []
  turns := []
  fails := []
  dummies := []
  seq := 2

end Sys2Proof.Machine
end

