-- ==== Sys2Proof/Machine/Ops.lean ====
section
/-! DEFINITION. The shared operations over the state: raising a fault, the guard every operation begins with, the
environment's choices, and starting a transmission. -/

namespace Sys2Proof.Machine

/-- What a step or a meaning answers. -/
abbrev Result := Host.Outcome State Fault Refusal

/-- Raising a fault, the machine's one exception: the fault register is written and nothing else changes
(spec/60_exceptions.md R221). There is no vector, no saved state and no return (R230, R231). -/
def State.raise (code : FaultCode) (s : State) : State := { s with fault := code }

/-- A transition of a machine with no fault; a faulted machine has none (spec/60_exceptions.md R221). -/
def guarded (s : State) (next : Result) : Result :=
  if s.fault = .none then next else .fault (.stuck s.fault)

/-- The number of a fault code (spec/60_exceptions.md R220). -/
def faultNumber : FaultCode → Nat
  | .none => 0
  | .configInvalid => 1
  | .allocFail => 2
  | .capOutOfRange => 3
  | .emptyPayload => 4
  | .payloadTooLong => 5
  | .payloadChanged => 6
  | .hwFail => 7
  | .endInFlight => 8
  | .resetInFlight => 9

/-- The 2-bit code of the EncoderState (spec/10_state.md R22). -/
def encoderStateCode : EncoderState → BitVec 2
  | .leading => 0b00
  | .data => 0b01
  | .ending => 0b10

/-- The 1-bit code of a status (spec/10_state.md R31). -/
def statusCode : Status → BitVec 1
  | .paused => 0
  | .complete => 1

/-- A block exists: its construction did not fail (spec/60_exceptions.md R222). -/
def State.blockExists (s : State) : Bool := s.fault != .configInvalid && s.fault != .allocFail

/-- The next turn: the schedule's, and past its end a free value (spec/93_implementation_defined.md I14, log 3). -/
def State.nextTurn (s : State) : Turn := s.turns.head?.getD (Config.freeTurn s.seq)

/-- The state after the next turn has been taken from the schedule. -/
def State.afterTurn (s : State) : State :=
  { s with turns := s.turns.tail, seq := if s.turns = [] then s.seq + 1 else s.seq }

/-- The state after a request has been read: `rest` are the bytes not yet taken (log 1). -/
def State.consume (rest : List Byte) (s : State) : State := { s with inbox := rest }

/-- Whether the next failable action fails (spec/45_transmission_controller.md R212, spec/60_exceptions.md R222, log 4). -/
def State.nextFail (s : State) : Bool := s.fails.head?.getD (Config.freeFail s.seq)

/-- The state after that answer has been used. -/
def State.afterFail (s : State) : State :=
  { s with fails := s.fails.tail, seq := if s.fails = [] then s.seq + 1 else s.seq }

/-- The content of the next dummy transmission (spec/45_transmission_controller.md R201, log 5). -/
def State.nextDummy (s : State) : List Symbol := s.dummies.head?.getD (Config.freeDummy s.seq)

/-- The state after that content has been used. -/
def State.afterDummy (s : State) : State :=
  { s with dummies := s.dummies.tail, seq := if s.dummies = [] then s.seq + 1 else s.seq }

/-- The capacity the engine offers is at most MAX_BATCH (spec/45_transmission_controller.md R207, log 23). -/
def State.offer (s : State) (cap : Nat) : Nat := min cap s.impl.maxBatch

/-- The host's call holds (spec/60_exceptions.md R234). -/
def State.hold (w : HostWait) (s : State) : State := { s with wait := some w }

/-- sendRaw starts a packet: `in_flight <- true; engine.start(P, N)` (spec/45_transmission_controller.md R202, R206). The
idle level in force for the transmission is the present one (R211, log 19). -/
def State.startPacket (p : Payload) (s : State) : State :=
  { s with inFlight := true, wait := none, tx := some ⟨.packet p, .stepping, s.idleLevel⟩ }

/-- end() starts its dummy transmission, with the idle level LOW, and holds (spec/45_transmission_controller.md R201). -/
def State.startDummy (s : State) : State :=
  { s.afterDummy with
    idleLevel := .low
    buf := s.buf ++ waveOf s.nextDummy
    tx := some ⟨.dummy, .draining, .low⟩
    wait := some .dummyDone }

/-- The output is enabled: begin()'s effect (spec/45_transmission_controller.md R200). -/
def State.enabled (s : State) : State := { s with idleLevel := .high, begun := true }

/-- The output is disabled and end()'s call is over (spec/45_transmission_controller.md R201). -/
def State.disabled (s : State) : State := { s with begun := false, wait := none }

/-- A fresh machine (spec/70_reset_and_hazards.md R250, steps 3 to 5). The requests and choices not yet used stay. The
line and the idle level are free values (spec/10_state.md R39, R40, log 6). -/
def State.fresh (pin : BitVec 32) (tb : Byte) (s : State) : State :=
  { s with
    pin := pin
    tb := tb
    profile := profileOf tb s.impl.ratios
    blk := Block.initial
    fault := .none
    dst := []
    resp := none
    flags := 0
    begun := false
    inFlight := false
    idleLevel := Config.freeLevel s.seq
    line := Config.freeLevel (s.seq + 1)
    wait := none
    tx := none
    buf := []
    wave := []
    seq := s.seq + 2 }

end Sys2Proof.Machine
end

