-- ==== Sys2Proof/Machine/Operands.lean ====
section
/-! DEFINITION. Reading the payload: bytes by index and bits in the order they are sent. -/

namespace Sys2Proof.Machine

/-- `PayRead(i)` (spec/20_memory.md R50, R51). A STEP reads only indexes below the length; past it the list has no byte,
and the model reads 0 (log 34). -/
def payRead (p : Payload) (i : Nat) : Byte := p.getD i 0

/-- Bit `g` of the payload, most significant first in each byte (spec/20_memory.md R54, spec/41_bit_encoder.md R122). -/
def payloadBit (p : Payload) (g : Nat) : Bool := (payRead p (g / 8)).getLsbD (7 - g % 8)

/-- Bits `from .. from + count - 1` of the payload, in the order they are sent. -/
def payloadBits (p : Payload) (start count : Nat) : List Bool :=
  (List.range count).map fun j => payloadBit p (start + j)

/-- setRandom's packed operand (spec/30_encoding.md R83). -/
def packMaskIndex (mask index : Byte) : Byte := ((mask &&& 0x0F#8) <<< (4 : Nat)) ||| (index &&& 0x0F#8)

end Sys2Proof.Machine
end

