-- ==== Sys2Proof/Machine/Flags.lean ====
section
/-! DEFINITION. The flag register of the command builders, and the two reports a capability makes. -/

namespace Sys2Proof.Machine

/-- The low three bits of a byte (spec/44_command_encoder.md R180). -/
def flagField (b : Byte) : BitVec 3 := b.extractLsb' 0 3

/-- setFlags' effect: `FLAGS <- flagByte[2:0]` (spec/44_command_encoder.md R180). -/
def State.putFlags (flagByte : Byte) (s : State) : State := { s with flags := flagField flagByte }

/-- `OPC_SET` (spec/10_state.md R36). -/
def State.opcSet (s : State) : Byte := opcodeByte kindSet s.flags

/-- `OPC_FILL` (spec/10_state.md R36). -/
def State.opcFill (s : State) : Byte := opcodeByte kindFill s.flags

/-- `OPC_RAND` (spec/10_state.md R36). -/
def State.opcRand (s : State) : Byte := opcodeByte kindRand s.flags

/-- The sub-complete report: all `len` items are emitted (spec/41_bit_encoder.md R121, spec/42_symbol_emitter.md R141). -/
def reportDone (progress len : Nat) : Bool := decide (progress = len)

/-- The destination-full report: the call left no free slot (spec/41_bit_encoder.md R124, spec/42_symbol_emitter.md R143). -/
def reportFull (free written : Nat) : Bool := decide (free - written = 0)

end Sys2Proof.Machine
end

