-- ==== Sys2Proof/Machine/Encoder.lean ====
section
/-! DEFINITION. The two capabilities (spec/41_bit_encoder.md, spec/42_symbol_emitter.md) and the state machine that
composes them (spec/43_waveform_encoder.md R151), over the block's own state. -/

namespace Sys2Proof.Machine

/-- What a capability call does: the symbols it writes (`w` is their number), its progress afterwards, and its two
reports (spec/10_state.md R32). -/
structure CapabilityResult where
  written : List Symbol
  progress : Nat
  done : Bool
  full : Bool
deriving DecidableEq, Repr

/-- How many items a capability writes: those left, bounded by the free slots (spec/41_bit_encoder.md R121,
spec/42_symbol_emitter.md R141). -/
def burst (len progress free : Nat) : Nat := min (len - progress) free

/-- Progress after a call: it returns to 0 on sub-complete (spec/41_bit_encoder.md R121, decision D11). -/
def progressAfter (len progress free : Nat) : Nat :=
  if reportDone (progress + burst len progress free) len then 0 else progress + burst len progress free

/-- `BitEncode()` (spec/41_bit_encoder.md R121). -/
def bitEncode (prof : Profile) (p : Payload) (bk free : Nat) : CapabilityResult where
  written := (payloadBits p bk (burst (8 * p.length) bk free)).map prof.bitSym
  progress := progressAfter (8 * p.length) bk free
  done := reportDone (bk + burst (8 * p.length) bk free) (8 * p.length)
  full := reportFull free (burst (8 * p.length) bk free)

/-- `EmitLiteral(L)` (spec/42_symbol_emitter.md R141). -/
def emitLiteral (literal : List Symbol) (se free : Nat) : CapabilityResult where
  written := (literal.drop se).take (burst literal.length se free)
  progress := progressAfter literal.length se free
  done := reportDone (se + burst literal.length se free) literal.length
  full := reportFull free (burst literal.length se free)

/-- What a STEP's body does: the block afterwards, the slots written in order, and the status; `none` where the
pseudocode reaches the line it marks "not reached" (spec/43_waveform_encoder.md R151). -/
structure BodyResult where
  blk : Block
  out : List Symbol
  status : Option Status
deriving DecidableEq, Repr

/-- The test `st = Ending` of STEP_body, with the slots written so far and the slots left
(spec/43_waveform_encoder.md R151, R154). -/
def endingStage (prof : Profile) (b : Block) (out : List Symbol) (free : Nat) : BodyResult :=
  let r := emitLiteral [prof.endSym] b.se free
  if r.done then ⟨{ b with st := .leading, se := r.progress, pkt := none }, out ++ r.written, some .complete⟩
  else if r.full then ⟨{ b with se := r.progress }, out ++ r.written, some .paused⟩
  else ⟨{ b with se := r.progress }, out ++ r.written, none⟩

/-- The test `st = Data` of STEP_body (spec/43_waveform_encoder.md R151 to R153). -/
def dataStage (prof : Profile) (p : Payload) (b : Block) (out : List Symbol) (free : Nat) : BodyResult :=
  let r := bitEncode prof p b.bk free
  let b' : Block := { b with st := if r.done then .ending else .data, bk := r.progress }
  if r.full then ⟨b', out ++ r.written, some .paused⟩
  else if r.done then endingStage prof b' (out ++ r.written) (free - r.written.length)
  else ⟨b', out ++ r.written, none⟩

/-- The test `st = Leading` of STEP_body (spec/43_waveform_encoder.md R151 to R153). -/
def leadingStage (prof : Profile) (p : Payload) (b : Block) (out : List Symbol) (free : Nat) : BodyResult :=
  let r := emitLiteral [prof.leadSym] b.se free
  let b' : Block := { b with st := if r.done then .data else .leading, se := r.progress }
  if r.full then ⟨b', out ++ r.written, some .paused⟩
  else if r.done then dataStage prof p b' (out ++ r.written) (free - r.written.length)
  else ⟨b', out ++ r.written, none⟩

/-- `STEP_body(cap)` (spec/43_waveform_encoder.md R151): the three tests are in sequence, so a stage that completes with
slots left falls through to the next. -/
def stepBody (prof : Profile) (p : Payload) (cap : Nat) (b : Block) : BodyResult :=
  match b.st with
  | .leading => leadingStage prof p b [] cap
  | .data => dataStage prof p b [] cap
  | .ending => endingStage prof b [] cap

/-- The first of STEP's admission checks that fails, in the spec's order; `FaultCode.none` where all pass
(spec/43_waveform_encoder.md R150, spec/60_exceptions.md R229). -/
def admission (impl : Impl) (cap : Nat) (p : Payload) (b : Block) : FaultCode :=
  if impl.maxBatch < cap then .capOutOfRange
  else if p.length = 0 then .emptyPayload
  else if impl.maxPayload < p.length then .payloadTooLong
  else if b.pkt ≠ none ∧ b.pkt ≠ some p then .payloadChanged
  else .none

/-- The latch after admission: `if pkt = none then pkt <- (N, P)` (spec/43_waveform_encoder.md R150). -/
def Block.latch (p : Payload) (b : Block) : Block := { b with pkt := some (b.pkt.getD p) }

/-- The state after a STEP's body: the block, the slots and the response, and the slots handed to the engine for sending
(spec/45_transmission_controller.md R208, R210). -/
def State.commit (blk : Block) (out : List Symbol) (status : Status) (s : State) : State :=
  { s with blk := blk, dst := out, resp := some ⟨out.length, status⟩, buf := s.buf ++ waveOf out }

/-- STEP on a machine with no fault: admission, then the body (spec/43_waveform_encoder.md R150, R151). -/
def stepRequest (cap : Nat) (p : Payload) (s : State) : Result :=
  if admission s.impl cap p s.blk ≠ .none then .next (s.raise (admission s.impl cap p s.blk))
  else
    match stepBody s.profile p cap (s.blk.latch p) with
    | ⟨blk, out, some status⟩ => .next (s.commit blk out status)
    | ⟨_, _, none⟩ => .fault .progressOutOfRange

end Sys2Proof.Machine
end

