-- ==== Sys2Proof/Machine/Controller.lean ====
section
/-! DEFINITION. The TransmissionController's calls and construction (spec/45_transmission_controller.md,
spec/70_reset_and_hazards.md R250). -/

namespace Sys2Proof.Machine

/-- sendRaw on a machine with no fault: `begun`, then an empty payload, then the wait
(spec/45_transmission_controller.md R202, spec/60_exceptions.md R229). -/
def State.send (payload : Option Payload) (s : State) : State :=
  if s.begun = false then s
  else if payload = none ∨ payload = some [] then s
  else if s.inFlight then s.hold (.sendRaw (payload.getD []))
  else s.startPacket (payload.getD [])

/-- sendRaw (spec/45_transmission_controller.md R202). -/
def execSendRaw (payload : Option Payload) (s : State) : Result :=
  guarded s (.next (s.send payload))

/-- begin's effect: idempotent; enabling may fail (spec/45_transmission_controller.md R200, R212). -/
def State.beginCall (s : State) : State :=
  if s.begun then s
  else if s.nextFail then s.afterFail.raise .hwFail
  else s.afterFail.enabled

/-- begin (spec/45_transmission_controller.md R200). -/
def execBegin (s : State) : Result := guarded s (.next s.beginCall)

/-- end's effect up to its wait: `begun`, then `in_flight`, then the dummy transmission
(spec/45_transmission_controller.md R201, spec/60_exceptions.md R229). -/
def State.endCall (s : State) : State :=
  if s.begun = false then s
  else if s.inFlight then s.raise .endInFlight
  else s.startDummy

/-- end (spec/45_transmission_controller.md R201); `State.resume` gives what follows its wait (log 20). -/
def execEnd (s : State) : Result := guarded s (.next s.endCall)

/-- construct's effect: the check of TB and RATIOS, the allocation, the fresh machine (spec/70_reset_and_hazards.md R250,
spec/60_exceptions.md R222). R250 puts the check of TB before the allocation; spec/40_timing_profile.md R107 gives the check
of RATIOS no place, and that it is made with TB's, before the allocation, is the model's choice (DESIGN CHOICE, log 35). -/
def State.constructCall (pin : BitVec 32) (tb : Byte) (s : State) : State :=
  if configOk tb s.impl.ratios = false then s.raise .configInvalid
  else if s.nextFail then s.afterFail.raise .allocFail
  else s.afterFail.fresh pin tb

/-- construct (spec/70_reset_and_hazards.md R250): the one operation a faulted machine can still run
(spec/10_state.md R27, log 12). -/
def execConstruct (pin : BitVec 32) (tb : Byte) (s : State) : Result := .next (s.constructCall pin tb)

/-- The host looks again at the call it holds in: sendRaw goes on once no packet is in flight
(spec/45_transmission_controller.md R203), end() once its dummy transmission is done (R201). -/
def State.resume (w : HostWait) (s : State) : State :=
  match w with
  | .sendRaw payload => if s.inFlight then s else s.startPacket payload
  | .dummyDone =>
    if s.tx ≠ none then s
    else if s.nextFail then s.afterFail.raise .hwFail
    else s.afterFail.disabled

end Sys2Proof.Machine
end

