-- ==== Sys2Proof/Machine/Commands.lean ====
section
/-! DEFINITION. The CommandEncoder: setFlags and the payload builders (spec/44_command_encoder.md). -/

namespace Sys2Proof.Machine

/-- The SET payload (spec/44_command_encoder.md R181). -/
def State.setPayload (s : State) (mask index r g b : Byte) : Payload := [s.opcSet, mask, index, r, g, b]

/-- The FILL payload (spec/44_command_encoder.md R183). -/
def State.fillPayload (s : State) (r g b : Byte) : Payload := [s.opcFill, r, g, b]

/-- The RAND payload (spec/44_command_encoder.md R184). -/
def State.randPayload (s : State) (mask index r g b : Byte) : Payload :=
  [s.opcRand, packMaskIndex mask index, r, g, b]

/-- setFlags (spec/44_command_encoder.md R180). -/
def execSetFlags (flagByte : Byte) (s : State) : Result :=
  guarded s (.next (s.putFlags flagByte))

/-- setPixelMasked (spec/44_command_encoder.md R181). -/
def execSet (mask index r g b : Byte) (s : State) : Result :=
  guarded s (.next (s.send (some (s.setPayload mask index r g b))))

/-- setPixelColor: SET with mask 0xFF (spec/44_command_encoder.md R182). -/
def execSetPixelColor (index r g b : Byte) (s : State) : Result :=
  guarded s (.next (s.send (some (s.setPayload 0xFF#8 index r g b))))

/-- fill (spec/44_command_encoder.md R183). -/
def execFill (r g b : Byte) (s : State) : Result :=
  guarded s (.next (s.send (some (s.fillPayload r g b))))

/-- setRandom (spec/44_command_encoder.md R184). -/
def execRand (mask index r g b : Byte) (s : State) : Result :=
  guarded s (.next (s.send (some (s.randPayload mask index r g b))))

end Sys2Proof.Machine
end

