-- ==== Sys2Proof/Machine/Requests.lean ====
section
/-! DEFINITION. The block's two requests as instructions: STEP and RESET (spec/43_waveform_encoder.md). -/

namespace Sys2Proof.Machine

/-- STEP (spec/43_waveform_encoder.md R150 to R155). -/
def execStep (cap : Nat) (payload : Payload) (s : State) : Result :=
  guarded s (stepRequest cap payload s)

/-- RESET's effect on a block (spec/43_waveform_encoder.md R156). -/
def State.resetBlock (s : State) : State := { s with blk := Block.initial }

/-- RESET (spec/43_waveform_encoder.md R156). While a packet is in flight there is a controller around the block, and
the request is refused with RESET_IN_FLIGHT (spec/60_exceptions.md R226, log 15). -/
def execReset (s : State) : Result :=
  guarded s (.next (if s.inFlight then s.raise .resetInFlight else s.resetBlock))

end Sys2Proof.Machine
end

