-- ==== Sys2Proof/Machine/Dispatch.lean ====
section
/-! DEFINITION. One arm per operation of spec/opcode_table.json. -/

namespace Sys2Proof.Machine

def exec (i : Instr) (s : State) : Host.Outcome State Fault Refusal :=
  match i with
  | .step cap payload => Sys2Proof.Machine.execStep cap payload s
  | .reset => Sys2Proof.Machine.execReset s
  | .set mask index r g b => Sys2Proof.Machine.execSet mask index r g b s
  | .fill r g b => Sys2Proof.Machine.execFill r g b s
  | .rand mask index r g b => Sys2Proof.Machine.execRand mask index r g b s
  | .setPixelColor index r g b => Sys2Proof.Machine.execSetPixelColor index r g b s
  | .setFlags flagByte => Sys2Proof.Machine.execSetFlags flagByte s
  | .sendRaw payload => Sys2Proof.Machine.execSendRaw payload s
  | .hostBegin => Sys2Proof.Machine.execBegin s
  | .hostEnd => Sys2Proof.Machine.execEnd s
  | .construct pin tb => Sys2Proof.Machine.execConstruct pin tb s

end Sys2Proof.Machine
end

