-- ==== Sys2Proof/Machine/Engine.lean ====
section
/-! DEFINITION. The engine's moves, at the interface the spec gives (spec/45_transmission_controller.md R206 to R212).
A move that is not possible in a state changes nothing (log 24). -/

namespace Sys2Proof.Machine

/-- The engine's transmission reaches a phase. -/
def State.putPhase (phase : TxPhase) (s : State) : State :=
  { s with tx := s.tx.map fun t => { t with phase := phase } }

/-- After its STEP, the engine invokes no more for a packet that returned Complete
(spec/45_transmission_controller.md R208). -/
def State.afterInvoke (s : State) : State :=
  if s.resp.map Response.status = some .complete ∧ s.fault = .none then s.putPhase .draining else s

/-- The engine invokes STEP with the payload of its packet (spec/45_transmission_controller.md R206, R207, R208). -/
def engineInvoke (cap : Nat) (s : State) : Result :=
  match s.tx with
  | some ⟨.packet payload, .stepping, _⟩ =>
    match stepRequest (s.offer cap) payload s with
    | .next t => .next t.afterInvoke
    | .fault r => .fault r
    | .refused r => .refused r
  | _ => .next s

/-- The engine puts the next segment on the line (spec/45_transmission_controller.md R210, spec/30_encoding.md R72). -/
def State.sendSegment (s : State) : State :=
  match s.buf with
  | [] => s
  | seg :: rest => { s with line := seg.level, wave := s.wave ++ [seg], buf := rest }

/-- When the last symbol has been sent, the line goes to the idle level in force
(spec/45_transmission_controller.md R211). -/
def State.settle (s : State) : State :=
  match s.tx with
  | some ⟨source, .draining, idle⟩ =>
    if s.buf = [] then { s with line := idle, tx := some ⟨source, .idled, idle⟩ } else s
  | _ => s

/-- The done event (spec/45_transmission_controller.md R209). It ends a packet's flight; the dummy transmission of end()
has none (spec/10_state.md R38). -/
def State.doneEvent (s : State) : State :=
  match s.tx with
  | some ⟨.packet _, .idled, _⟩ => { s with inFlight := false, tx := none }
  | some ⟨.dummy, .idled, _⟩ => { s with tx := none }
  | _ => s

/-- A transmission fails (spec/45_transmission_controller.md R212). -/
def State.txFail (s : State) : State := if s.tx = none then s else s.raise .hwFail

end Sys2Proof.Machine
end

