-- ==== Sys2Proof/Machine/Turns.lean ====
section
/-! DEFINITION. What one turn does: the host's next call or its wait, or one move of the engine. -/

namespace Sys2Proof.Machine

/-- The host's next request: the one at the head of the inbox. With none placed, the host makes no call (log 33). -/
def nextRequest (s : State) : Result :=
  match s.inbox with
  | [] => guarded s (.next s)
  | _ =>
    match decode s.inbox with
    | .error why => guarded s (.refused (.undecoded why))
    | .ok (i, rest) => exec i (s.consume rest)

/-- The host's turn: the call it holds in, or its next request. A fault ends the host's wait, as nothing but a new
construction can follow (spec/60_exceptions.md R221, R231, log 13). -/
def hostTurn (s : State) : Result :=
  match s.wait with
  | some w => if s.fault = .none then .next (s.resume w) else nextRequest s
  | none => nextRequest s

/-- One turn (spec/60_exceptions.md R234). -/
def runTurn (t : Turn) (s : State) : Result :=
  match t with
  | .host => hostTurn s
  | .invoke cap => guarded s (engineInvoke cap s)
  | .send => guarded s (.next s.sendSegment)
  | .settle => guarded s (.next s.settle)
  | .done => guarded s (.next s.doneEvent)
  | .fail => guarded s (.next s.txFail)

/-- Place a request where the next step takes it: at the head of the inbox, with the host to move and in no call. -/
def State.place (bytes : List Byte) (s : State) : State :=
  { s with wait := none, turns := .host :: s.turns, inbox := bytes ++ s.inbox }

end Sys2Proof.Machine
end

