-- ==== Sys2Proof/Machine/Step.lean ====
section
/-! DEFINITION. One step of the machine: the agent whose turn it is makes its move. -/

namespace Sys2Proof.Machine

/-- One transition, made by the agent whose turn comes next (spec/60_exceptions.md R234, spec/20_memory.md R60). -/
def step (s : State) : Host.Outcome State Fault Refusal := runTurn s.nextTurn s.afterTurn

/-- `s` with the request of a table word where the next step takes it (log 1). -/
def State.withFetchWord (s : State) (nbits w : Nat) : State := s.place (tableRequest nbits w)

end Sys2Proof.Machine
end

