-- ==== Sys2Proof/Machine/Packet.lean ====
section
/-! DEFINITION. The packet as a sequence of symbols, the packet position and the closed form of STEP
(spec/43_waveform_encoder.md R159 to R163, spec/10_state.md R25). -/

namespace Sys2Proof.Machine

/-- All `8N` bits of a payload in the order they are sent (spec/41_bit_encoder.md R122). -/
def allBits (p : Payload) : List Bool := payloadBits p 0 (8 * p.length)

/-- `Seq(P)` (spec/43_waveform_encoder.md R160). -/
def packetSeq (prof : Profile) (p : Payload) : List Symbol :=
  prof.leadSym :: ((allBits p).map prof.bitSym ++ [prof.endSym])

/-- The packet position, for a packet of `n` bytes (spec/10_state.md R25). -/
def Block.position (n : Nat) (b : Block) : Nat :=
  match b.st with
  | .leading => 0
  | .data => 1 + b.bk
  | .ending => 1 + 8 * n

/-- `pos_to_state`, with the latch (spec/43_waveform_encoder.md R161). -/
def blockAt (p : Payload) (q : Nat) : Block :=
  if q = 0 then ⟨.leading, 0, 0, some p⟩
  else if q ≤ 8 * p.length then ⟨.data, q - 1, 0, some p⟩
  else ⟨.ending, 0, 0, some p⟩

/-- How many symbols an admitted STEP writes from position `q` (spec/43_waveform_encoder.md R161). -/
def closedCount (p : Payload) (q cap : Nat) : Nat := min cap (8 * p.length + 2 - q)

/-- The closed form of an admitted STEP from position `q` (spec/43_waveform_encoder.md R161). -/
def closedStep (prof : Profile) (p : Payload) (cap q : Nat) : BodyResult :=
  if q + closedCount p q cap = 8 * p.length + 2 then
    ⟨Block.initial, ((packetSeq prof p).drop q).take (closedCount p q cap), some .complete⟩
  else
    ⟨blockAt p (q + closedCount p q cap), ((packetSeq prof p).drop q).take (closedCount p q cap), some .paused⟩

/-- One STEP as the caller sees it: the next state with the slots it wrote and its status, where it is admitted. -/
def stepOnce (cap : Nat) (p : Payload) (s : State) : Option (State × List Symbol × Status) :=
  match execStep cap p s with
  | .next t => if t.fault = .none then t.resp.map fun r => (t, t.dst, r.status) else none
  | .fault _ => none
  | .refused _ => none

/-- STEP after STEP with the same payload: the state, the symbols written in order and the statuses, where every STEP is
admitted. -/
def drain (p : Payload) : List Nat → State → Option (State × List Symbol × List Status)
  | [], s => some (s, [], [])
  | cap :: caps, s =>
    match stepOnce cap p s with
    | none => none
    | some (t, out, status) =>
      match drain p caps t with
      | none => none
      | some (u, rest, statuses) => some (u, out ++ rest, status :: statuses)

/-- The BitEncoder's calls for one packet, with the free counts offered, up to the call that reports `done`
(spec/41_bit_encoder.md R126): the symbols emitted; `none` where the counts end earlier or go on. -/
def bitDrain (prof : Profile) (p : Payload) : List Nat → Nat → Option (List Symbol)
  | [], _ => none
  | free :: frees, bk =>
    let r := bitEncode prof p bk free
    if r.done then (if frees = [] then some r.written else none)
    else (bitDrain prof p frees r.progress).map fun rest => r.written ++ rest

/-- The statuses of a packet drained in `k` STEPs: `k - 1` times Paused, then Complete. -/
def drainStatuses (k : Nat) : List Status := List.replicate (k - 1) .paused ++ [.complete]

end Sys2Proof.Machine
end

