-- ==== Sys2Proof/Safety.lean ====
section
/-! DEFINITION. What the spec says of every state: where a run ends normally, what a healthy block is, and the
invariants claims rest on. -/

namespace Sys2Proof.Machine

/-- The block is in its construction state (spec/20_memory.md R59). -/
abbrev State.atRest (s : State) : Prop := s.blk = Block.initial

/-- A run has ended normally (spec/70_reset_and_hazards.md R253). -/
abbrev State.normalEnd (s : State) : Prop :=
  s.fault = .none ∧ s.inFlight = false ∧ s.atRest ∧ s.wait = none

/-- A block between requests, as the spec describes its registers: `se` is 0 (spec/42_symbol_emitter.md R142); `bk` is 0
but in Data, where it is below `8 * N` (spec/10_state.md R23); the latch holds the packet's payload from its first STEP to
its Complete (R26), and it was admitted (spec/43_waveform_encoder.md R150). -/
def Block.wf (impl : Impl) (b : Block) : Bool :=
  match b with
  | ⟨.leading, bk, se, none⟩ => bk == 0 && se == 0
  | ⟨.leading, bk, se, some p⟩ => bk == 0 && se == 0 && decide (1 ≤ p.length ∧ p.length ≤ impl.maxPayload)
  | ⟨.data, bk, se, some p⟩ =>
    se == 0 && decide (bk < 8 * p.length) && decide (1 ≤ p.length ∧ p.length ≤ impl.maxPayload)
  | ⟨.ending, bk, se, some p⟩ => bk == 0 && se == 0 && decide (1 ≤ p.length ∧ p.length ≤ impl.maxPayload)
  | ⟨.data, _, _, none⟩ => false
  | ⟨.ending, _, _, none⟩ => false

/-- The parameters lie where the spec puts them (spec/00_scope.md R8). -/
def implOk (impl : Impl) : Bool := decide (1 ≤ impl.maxBatch) && decide (6 ≤ impl.maxPayload)

/-- A STEP with these operands passes every admission check (spec/43_waveform_encoder.md R150). -/
abbrev State.admits (s : State) (cap : Nat) (p : Payload) : Prop :=
  s.fault = .none ∧ cap ≤ s.impl.maxBatch ∧ 1 ≤ p.length ∧ p.length ≤ s.impl.maxPayload ∧
    (s.blk.pkt = none ∨ s.blk.pkt = some p)

/-- The block and its configuration are healthy: an invariant of every step. -/
structure State.BlockInv (s : State) : Prop where
  /-- The parameters are in range (spec/00_scope.md R8). -/
  impl_ok : implOk s.impl = true
  /-- The timebase and the ratios were admitted (spec/40_timing_profile.md R100, R107). -/
  config_ok : configOk s.tb s.impl.ratios = true
  /-- The profile is the one construction computed (spec/40_timing_profile.md R109). -/
  profile_fixed : s.profile = profileOf s.tb s.impl.ratios
  /-- The block is healthy (spec/10_state.md R22 to R26). -/
  blk_wf : s.blk.wf s.impl = true

/-- The engine holds a packet's transmission. -/
def State.packetTx (s : State) : Bool :=
  match s.tx with
  | some ⟨.packet _, _, _⟩ => true
  | _ => false

/-- Host and engine agree: an invariant of every step. -/
structure State.HostInv (s : State) : Prop where
  /-- in_flight from sendRaw's start to the done event (spec/10_state.md R38). -/
  in_flight : s.inFlight = s.packetTx
  /-- A transmission is made only while begun (spec/45_transmission_controller.md R201, R202). -/
  tx_begun : s.tx ≠ none → s.begun = true
  /-- A held call was made while begun (spec/45_transmission_controller.md R201, R202). -/
  wait_begun : s.wait ≠ none → s.begun = true
  /-- A payload held in sendRaw's wait is not empty (spec/45_transmission_controller.md R202). -/
  held_payload : ∀ p, s.wait = some (.sendRaw p) → p ≠ []
  /-- A payload in flight is not empty (spec/45_transmission_controller.md R202). -/
  sent_payload : ∀ p phase idle, s.tx = some ⟨.packet p, phase, idle⟩ → p ≠ []
  /-- end() holds only with no packet in flight and the idle level LOW (spec/45_transmission_controller.md R201). -/
  ending : s.wait = some .dummyDone → s.inFlight = false ∧ s.idleLevel = .low
  /-- A dummy transmission is end()'s, and end() holds until it is done (spec/45_transmission_controller.md R201). -/
  dummy_held : ∀ phase idle, s.tx = some ⟨.dummy, phase, idle⟩ → s.wait = some .dummyDone

/-- The next step takes a STEP request that the host makes itself, past the engine. -/
def State.directStep (s : State) : Bool :=
  match s.nextTurn, s.wait, decode s.inbox with
  | .host, none, .ok (.step _ _, _) => true
  | _, _, _ => false

/-- The engine's STEPs are the only STEPs made on the block (spec/45_transmission_controller.md R206): an invariant of every
step that takes no STEP request of the host's own. -/
structure State.DrivenInv (s : State) : Prop where
  /-- With no packet to step, the block is in its construction state. -/
  at_rest : (∀ p idle, s.tx ≠ some ⟨.packet p, .stepping, idle⟩) → s.blk = Block.initial
  /-- While a packet is stepped, a latched payload is that packet's (spec/20_memory.md R63). -/
  latched : ∀ p idle, s.tx = some ⟨.packet p, .stepping, idle⟩ → s.blk.pkt = none ∨ s.blk.pkt = some p
  /-- The line is at the idle level in force once a transmission has gone idle (spec/45_transmission_controller.md R211). -/
  idled : ∀ source idle, s.tx = some ⟨source, .idled, idle⟩ → s.line = idle ∧ s.buf = []

/-- Turn after turn; `none` where a turn gives no next state. -/
def runTurns : List Turn → State → Option State
  | [], s => some s
  | t :: ts, s =>
    match runTurn t s with
    | .next u => runTurns ts u
    | .fault _ => none
    | .refused _ => none

/-- The engine's moves that carry a packet to the line (spec/45_transmission_controller.md R206 to R211). -/
def turnCarries : Turn → Bool
  | .invoke _ => true
  | .send => true
  | .settle => true
  | .host => false
  | .done => false
  | .fail => false

/-- Physical time of a number of ticks, in the unit of TICK_PERIOD (spec/40_timing_profile.md R110). -/
def physicalTime (ticks : Nat) : Nat := ticks * Config.tickPeriod

end Sys2Proof.Machine
end

