-- ==== Sys2Proof/Certificates/Slice0/Obligations.lean ====
section
/-! DEFINITION. The statements for the provers. Each says which rule of spec/ it formalises. Where a statement rests on a
choice of the model's own, its docstring names the log entry. -/

open Sys2Proof Sys2Proof.Machine

/-! ### Encodings -/

/-- Decoding what the encoder writes gives the request back, for every request, whatever FLAGS holds and whatever bytes
follow. The bytes of the host calls and of the operands are the model's own (log 1). -/
def Obligations.DecodeEncodeRoundTrip : Prop :=
  ∀ (flags : BitVec 3) (i : Instr) (rest : List Byte), decode (encode flags i ++ rest) = .ok (i, rest)

/-- spec/30_encoding.md R78: what a STEP request and its response carry. cap's bus field has `ceil(log2(MAX_BATCH + 1))` bits,
the least number of bits that holds every cap up to MAX_BATCH; a request with op = 0 carries its cap and its payload
whole; and the response to an admitted STEP counts the slots written, at most cap, with a status of one bit. -/
def Obligations.BlockRequestFields : Prop :=
  (∀ maxBatch w : Nat, capWidth maxBatch ≤ w ↔ maxBatch + 1 ≤ 2 ^ w) ∧
  (∀ (maxBatch cap : Nat) (p : Payload), cap ≤ maxBatch →
    ∃ r, busRequest maxBatch (.step cap p) = some r ∧ r.op = 0 ∧ r.instr = .step cap p) ∧
  (∀ (maxBatch : Nat) (r : BusRequest maxBatch),
    busRequest maxBatch r.instr = some r ∧ (r.op = 0 ↔ ∃ cap p, r.instr = .step cap p)) ∧
  (∀ (s : State) (cap : Nat) (p : Payload), s.BlockInv → s.admits cap p →
    ∃ t status, exec (.step cap p) s = .next t ∧ t.resp = some ⟨t.dst.length, status⟩ ∧ t.dst.length ≤ cap ∧
      (statusCode status = 0 ↔ status = .paused) ∧ (statusCode status = 1 ↔ status = .complete))

/-- The encodings spec/30_encoding.md gives (R77, R81), written out in bits, decode to their operations. -/
def Obligations.SpecEncodingsDecode : Prop :=
  decodeTableWord 8 0b00000000 = some (.step 0 []) ∧
  decodeTableWord 8 0b00000001 = some .reset ∧
  decode [0b00110101, 0x0F, 0x03, 0x01, 0x02, 0x03] = .ok (.set 0x0F 0x03 0x01 0x02 0x03, []) ∧
  decode [0b00011000, 0x0A, 0x0B, 0x0C] = .ok (.fill 0x0A 0x0B 0x0C, []) ∧
  decode [0b01001111, 0x1A, 0x23, 0x01, 0x02, 0x03] = .ok (.rand 0x1A 0x23 0x01 0x02 0x03, [])

/-- spec/10_state.md R36: the opcode constants are their kind and FLAGS; after a construction they are 0x30, 0x18, 0x48. -/
def Obligations.OpcodeConstantsFollowFlags : Prop :=
  (∀ s : State,
    opcodeFields s.opcSet = (0b00110#5, s.flags) ∧
    opcodeFields s.opcFill = (0b00011#5, s.flags) ∧
    opcodeFields s.opcRand = (0b01001#5, s.flags)) ∧
  (∀ (pin : BitVec 32) (tb : Byte) (s t : State), exec (.construct pin tb) s = .next t → t.fault = .none →
    t.opcSet = 0x30#8 ∧ t.opcFill = 0x18#8 ∧ t.opcRand = 0x48#8)

/-- spec/30_encoding.md R73: the fields of the 32-bit word, and both directions of the map. -/
def Obligations.SymbolWordLayout : Prop :=
  (∀ s : Symbol,
    (symbolWord s).extractLsb' 0 15 = s.duration0 ∧
    (symbolWord s).extractLsb' 15 1 = levelCode s.level0 ∧
    (symbolWord s).extractLsb' 16 15 = s.duration1 ∧
    (symbolWord s).extractLsb' 31 1 = levelCode s.level1 ∧
    symbolOfWord (symbolWord s) = s) ∧
  (∀ w : BitVec 32, symbolWord (symbolOfWord w) = w)

/-- spec/30_encoding.md R75, an inference the spec marks as its own: the words of the four symbols at TB = 70. -/
def Obligations.DefaultSymbolWords : Prop :=
  let prof := profileOf 70#8 defaultRatios
  prof.leadSym = ⟨69#15, .low, 1#15, .low⟩ ∧ symbolWord prof.leadSym = 0x00010045#32 ∧
  prof.endSym = ⟨489#15, .high, 1#15, .high⟩ ∧ symbolWord prof.endSym = 0x800181E9#32 ∧
  prof.bit0Sym = ⟨70#15, .high, 70#15, .low⟩ ∧ symbolWord prof.bit0Sym = 0x00468046#32 ∧
  prof.bit1Sym = ⟨210#15, .high, 70#15, .low⟩ ∧ symbolWord prof.bit1Sym = 0x004680D2#32

/-- spec/30_encoding.md R76, an inference the spec marks as its own: at every admitted TB the four symbols are told apart as
the rule says, and a packet's symbols read back to the payload's bytes. -/
def Obligations.SymbolsClassify : Prop :=
  ∀ tb : Byte, 2 ≤ tb.toNat →
    let prof := profileOf tb defaultRatios
    [prof.leadSym, prof.endSym, prof.bit0Sym, prof.bit1Sym].Nodup ∧
    (∀ x ∈ [prof.leadSym, prof.endSym, prof.bit0Sym, prof.bit1Sym],
      (x.level0 = .low ↔ x = prof.leadSym) ∧ (x.level1 = .high ↔ x = prof.endSym)) ∧
    prof.bit0Sym.duration0 ≠ prof.bit1Sym.duration0 ∧ prof.t1h = 3 * tb.toNat ∧ prof.t0h = tb.toNat ∧
    (∀ p : Payload, prof.readPacket p.length (packetSeq prof p) = p)

/-- spec/30_encoding.md R83: the packed byte of setRandom. -/
def Obligations.PackedMaskIndex : Prop :=
  ∀ mask index : Byte,
    (packMaskIndex mask index).extractLsb' 4 4 = mask.extractLsb' 0 4 ∧
    (packMaskIndex mask index).extractLsb' 0 4 = index.extractLsb' 0 4

/-! ### The TimingProfile -/

/-- spec/40_timing_profile.md R108. -/
def Obligations.DefaultProfile : Prop :=
  profileOf 70#8 defaultRatios = ⟨70, 70, 210, 70, 69, 489⟩

/-- spec/40_timing_profile.md R100, and R107, an inference the spec marks as its own: with the default ratios exactly TB 2..255 is admitted, the durations lie in the
ranges given, and no duration field truncates one. -/
def Obligations.ProfileRanges : Prop :=
  (∀ tb : Byte, configOk tb defaultRatios = true ↔ 2 ≤ tb.toNat) ∧
  (∀ tb : Byte, 2 ≤ tb.toNat →
    let prof := profileOf tb defaultRatios
    (2 ≤ prof.t0h ∧ prof.t0h ≤ 255) ∧ (2 ≤ prof.t0l ∧ prof.t0l ≤ 255) ∧ (2 ≤ prof.t1l ∧ prof.t1l ≤ 255) ∧
    (6 ≤ prof.t1h ∧ prof.t1h ≤ 765) ∧ (1 ≤ prof.leadD0 ∧ prof.leadD0 ≤ 254) ∧
    (13 ≤ prof.endD0 ∧ prof.endD0 ≤ 1784)) ∧
  (∀ (tb : Byte) (r : Ratios), configOk tb r = true →
    let prof := profileOf tb r
    prof.leadSym.duration0.toNat = prof.leadD0 ∧ prof.endSym.duration0.toNat = prof.endD0 ∧
    prof.bit0Sym.duration0.toNat = prof.t0h ∧ prof.bit0Sym.duration1.toNat = prof.t0l ∧
    prof.bit1Sym.duration0.toNat = prof.t1h ∧ prof.bit1Sym.duration1.toNat = prof.t1l)

/-- spec/40_timing_profile.md R104 to R106: how long each symbol holds the line, for every admitted configuration. -/
def Obligations.SymbolsLastTheirRatios : Prop :=
  ∀ (tb : Byte) (r : Ratios), configOk tb r = true →
    let prof := profileOf tb r
    lineTicks (segmentsOf prof.leadSym) = tb.toNat * r.prePktL ∧
    (∀ seg ∈ segmentsOf prof.leadSym, seg.level = .low) ∧
    lineTicks (segmentsOf prof.endSym) = tb.toNat * r.interPktH ∧
    (∀ seg ∈ segmentsOf prof.endSym, seg.level = .high) ∧
    lineTicks (segmentsOf prof.bit0Sym) = tb.toNat * r.t0h + tb.toNat * r.t0l ∧
    (segmentsOf prof.bit0Sym).map Segment.level = [.high, .low] ∧
    lineTicks (segmentsOf prof.bit1Sym) = tb.toNat * r.t1h + tb.toNat * r.t1l ∧
    (segmentsOf prof.bit1Sym).map Segment.level = [.high, .low]

/-- spec/70_reset_and_hazards.md R261, an inference the spec marks as its own: how many ticks a packet holds the line. -/
def Obligations.PacketLineTime : Prop :=
  (∀ (tb : Byte) (r : Ratios) (p : Payload), configOk tb r = true →
    let prof := profileOf tb r
    let z := (allBits p).count false
    let o := (allBits p).count true
    z + o = 8 * p.length ∧
    lineTicks (waveOf (packetSeq prof p)) =
      tb.toNat * r.prePktL + z * (prof.t0h + prof.t0l) + o * (prof.t1h + prof.t1l) + tb.toNat * r.interPktH) ∧
  (∀ (tb : Byte) (p : Payload), 2 ≤ tb.toNat →
    lineTicks (waveOf (packetSeq (profileOf tb defaultRatios) p)) =
      tb.toNat * (1 + 2 * (allBits p).count false + 4 * (allBits p).count true + 7)) ∧
  lineTicks (waveOf (packetSeq (profileOf 70#8 defaultRatios) [0x18, 0x00, 0x00, 0x00])) = 5320 ∧
  lineTicks (waveOf (packetSeq (profileOf 70#8 defaultRatios) [0x30, 0xFF, 0x05, 0xFF, 0x00, 0x00])) = 10080

/-- spec/40_timing_profile.md R109: no operation but a construction, and no move of the engine, changes the timebase, the
parameters or the profile. -/
def Obligations.ProfileImmutable : Prop :=
  (∀ (i : Instr) (s t : State), (∀ pin tb, i ≠ .construct pin tb) → exec i s = .next t →
    t.tb = s.tb ∧ t.profile = s.profile ∧ t.impl = s.impl ∧ t.pin = s.pin) ∧
  (∀ (turn : Turn) (s t : State), turn ≠ .host → runTurn turn s = .next t →
    t.tb = s.tb ∧ t.profile = s.profile ∧ t.impl = s.impl ∧ t.pin = s.pin)

/-! ### The two capabilities -/

/-- spec/41_bit_encoder.md R122: the BitEncoder emits the payload's bits most significant first in each byte, bytes in
buffer order. -/
def Obligations.BitsMostSignificantFirst : Prop :=
  ∀ p : Payload,
    let bits := p.flatMap fun b =>
      [b.getLsbD 7, b.getLsbD 6, b.getLsbD 5, b.getLsbD 4, b.getLsbD 3, b.getLsbD 2, b.getLsbD 1, b.getLsbD 0]
    allBits p = bits ∧
    ∀ (prof : Profile) (free : Nat),
      (bitEncode prof p 0 free).written = (bits.map fun bit => if bit then prof.bit1Sym else prof.bit0Sym).take free

/-- spec/41_bit_encoder.md R124, in part an inference the spec marks as its own: the BitEncoder's reports. -/
def Obligations.BitEncoderReports : Prop :=
  ∀ (prof : Profile) (p : Payload) (bk free : Nat), bk < 8 * p.length →
    let r := bitEncode prof p bk free
    (r.done = true ↔ bk + r.written.length = 8 * p.length) ∧
    (r.full = true ↔ free = r.written.length) ∧
    (r.done = true ∧ r.full = true ↔ free = 8 * p.length - bk) ∧
    (r.done = false → r.written.length = free ∧ r.full = true)

/-- spec/41_bit_encoder.md R126, an inference the spec marks as its own: whatever the free counts, calls that end in `done` emit every bit once, in order. -/
def Obligations.BitEncoderResumes : Prop :=
  ∀ (prof : Profile) (p : Payload) (frees : List Nat) (out : List Symbol), 1 ≤ p.length →
    bitDrain prof p frees 0 = some out → out = (allBits p).map prof.bitSym

/-- spec/42_symbol_emitter.md R142 and R143, inferences the spec marks as its own: the two outcomes of copying a one-symbol literal. -/
def Obligations.SymbolEmitterOutcomes : Prop :=
  ∀ (x : Symbol) (free : Nat),
    let r := emitLiteral [x] 0 free
    (1 ≤ free → r.written = [x] ∧ r.done = true ∧ r.progress = 0 ∧ (r.full = true ↔ free = 1)) ∧
    (free = 0 → r.written = [] ∧ r.done = false ∧ r.full = true ∧ r.progress = 0)

/-! ### STEP and RESET -/

/-- spec/43_waveform_encoder.md R161, an inference the spec marks as its own: an admitted STEP is its closed form, in every
healthy state; so it completes, with the slots written, the response, and the block as the closed form says. That the
slots reach the engine's buffer on a STEP the host makes directly too is the model's choice (log 16, DESIGN CHOICE). -/
def Obligations.StepClosedForm : Prop :=
  ∀ (s : State) (cap : Nat) (p : Payload), s.BlockInv → s.admits cap p →
    let q := s.blk.position p.length
    let w := min cap (8 * p.length + 2 - q)
    let out := ((packetSeq s.profile p).drop q).take w
    exec (.step cap p) s = .next
      (if q + w = 8 * p.length + 2 then s.commit ⟨.leading, 0, 0, none⟩ out .complete
       else if q + w = 0 then s.commit ⟨.leading, 0, 0, some p⟩ out .paused
       else if q + w ≤ 8 * p.length then s.commit ⟨.data, q + w - 1, 0, some p⟩ out .paused
       else s.commit ⟨.ending, 0, 0, some p⟩ out .paused)

/-- spec/60_exceptions.md R223, in the order of R229: which STEPs raise which fault, that an admitted STEP raises none, and
that RESET at the block raises none. -/
def Obligations.StepAdmissionOrder : Prop :=
  ∀ (s : State) (cap : Nat) (p : Payload), s.fault = .none →
    (s.impl.maxBatch < cap → exec (.step cap p) s = .next (s.raise .capOutOfRange)) ∧
    (cap ≤ s.impl.maxBatch → p = [] → exec (.step cap p) s = .next (s.raise .emptyPayload)) ∧
    (cap ≤ s.impl.maxBatch → p ≠ [] → s.impl.maxPayload < p.length →
      exec (.step cap p) s = .next (s.raise .payloadTooLong)) ∧
    (∀ p', cap ≤ s.impl.maxBatch → p ≠ [] → p.length ≤ s.impl.maxPayload → s.blk.pkt = some p' → p' ≠ p →
      exec (.step cap p) s = .next (s.raise .payloadChanged)) ∧
    (s.BlockInv → s.admits cap p → ∃ t, exec (.step cap p) s = .next t ∧ t.fault = .none) ∧
    (s.inFlight = false → ∃ t, exec .reset s = .next t ∧ t.fault = .none)

/-- spec/43_waveform_encoder.md R158, an inference the spec marks as its own: a STEP with no free slot. -/
def Obligations.StepWithNoSlots : Prop :=
  ∀ (s : State) (p : Payload), s.BlockInv → s.admits 0 p →
    ∃ t, exec (.step 0 p) s = .next t ∧ t.dst = [] ∧ t.resp = some ⟨0, .paused⟩ ∧
      t.blk = { s.blk with pkt := some p } ∧ t.buf = s.buf

/-- spec/43_waveform_encoder.md R155 and R157, in part inferences the spec marks as its own: an admitted STEP writes at most `cap` symbols, its response counts them, and
Complete leaves the construction state while Paused leaves the packet latched. That the slots reach the engine's buffer on
a STEP the host makes directly too is the model's choice (log 16, DESIGN CHOICE), and no rule's. -/
def Obligations.StepAnswersPausedOrComplete : Prop :=
  ∀ (s : State) (cap : Nat) (p : Payload), s.BlockInv → s.admits cap p →
    ∃ t, exec (.step cap p) s = .next t ∧ t.dst.length ≤ cap ∧ t.buf = s.buf ++ waveOf t.dst ∧
      ((t.resp = some ⟨t.dst.length, .complete⟩ ∧ t.blk = Block.initial) ∨
        (t.resp = some ⟨t.dst.length, .paused⟩ ∧ t.blk.pkt = some p ∧ t.dst.length = cap))

/-- What a STEP leaves unchanged, whatever its outcome: everything but the block, its outputs, the fault register and the
engine's buffer (spec/43_waveform_encoder.md R150). -/
def Obligations.StepFrame : Prop :=
  ∀ (s t : State) (cap : Nat) (p : Payload), exec (.step cap p) s = .next t →
    t.pin = s.pin ∧ t.tb = s.tb ∧ t.profile = s.profile ∧ t.impl = s.impl ∧ t.flags = s.flags ∧ t.begun = s.begun ∧
    t.inFlight = s.inFlight ∧ t.idleLevel = s.idleLevel ∧ t.line = s.line ∧ t.wait = s.wait ∧ t.tx = s.tx ∧
    t.wave = s.wave ∧ t.inbox = s.inbox ∧ t.turns = s.turns ∧ t.fails = s.fails ∧ t.dummies = s.dummies ∧
    t.seq = s.seq ∧
    (t.fault ≠ .none → t = s.raise t.fault)

/-- spec/43_waveform_encoder.md R160: the packet's sequence, index by index. -/
def Obligations.PacketSequence : Prop :=
  ∀ (prof : Profile) (p : Payload),
    (packetSeq prof p).length = 8 * p.length + 2 ∧
    (packetSeq prof p)[0]? = some prof.leadSym ∧
    (∀ (g : Nat) (b : Byte), g < 8 * p.length → p[g / 8]? = some b →
      (packetSeq prof p)[1 + g]? = some (if b.getLsbD (7 - g % 8) then prof.bit1Sym else prof.bit0Sym)) ∧
    (packetSeq prof p)[8 * p.length + 1]? = some prof.endSym

/-- spec/43_waveform_encoder.md R159: a fully drained packet has 1 + 8N + 1 symbols, whatever the capacities were. -/
def Obligations.DrainedPacketLength : Prop :=
  ∀ (s t : State) (p : Payload) (caps : List Nat) (out : List Symbol), s.BlockInv → s.blk = Block.initial →
    drain p caps s = some (t, out, drainStatuses caps.length) →
    out.length = 1 + 8 * p.length + 1 ∧ 1 ≤ p.length

/-- spec/43_waveform_encoder.md R162: whatever the capacities, a packet drained to its Complete is `Seq(P)`, the output of one
STEP that offers room for all of it. -/
def Obligations.DeterminismUnderChunking : Prop :=
  ∀ (s t : State) (p : Payload) (caps : List Nat) (out : List Symbol), s.BlockInv → s.blk = Block.initial →
    drain p caps s = some (t, out, drainStatuses caps.length) →
    out = packetSeq s.profile p ∧
    (∀ cap, 8 * p.length + 2 ≤ cap → cap ≤ s.impl.maxBatch → ∃ u, stepOnce cap p s = some (u, out, .complete))

/-- spec/43_waveform_encoder.md R163, an inference the spec marks as its own: how many STEPs of one capacity a packet takes, and that none is made with no slots. -/
def Obligations.NumberOfSteps : Prop :=
  ∀ (s : State) (p : Payload), s.BlockInv → s.blk = Block.initial → s.fault = .none → 1 ≤ p.length →
    p.length ≤ s.impl.maxPayload →
    (∀ c, 1 ≤ c → c ≤ s.impl.maxBatch →
      ∃ t out, drain p (List.replicate ((8 * p.length + 2 + c - 1) / c) c) s =
        some (t, out, drainStatuses ((8 * p.length + 2 + c - 1) / c))) ∧
    (∀ k, ∃ t, drain p (List.replicate k 0) s = some (t, [], List.replicate k .paused))

/-- spec/70_reset_and_hazards.md R251: RESET restores `st`, `bk`, `se` and `pkt` from any of their values, leaves every other
value alone, and a second RESET changes nothing. -/
def Obligations.ResetRestoresBlock : Prop :=
  ∀ s : State, s.fault = .none → s.inFlight = false →
    exec .reset s = .next { s with blk := ⟨.leading, 0, 0, none⟩ } ∧
    exec .reset { s with blk := ⟨.leading, 0, 0, none⟩ } = .next { s with blk := ⟨.leading, 0, 0, none⟩ }

/-- spec/60_exceptions.md R226: a RESET while a packet is in flight is refused. That `in_flight` tells a host-level RESET from
a bare one is the model's reading (log 15). -/
def Obligations.ResetInFlightRaises : Prop :=
  ∀ s : State, s.fault = .none → s.inFlight = true → exec .reset s = .next { s with fault := .resetInFlight }

/-! ### Faults -/

/-- No operation but a construction runs on a faulted machine, no agent moves, and nothing else clears the fault: what
spec/60_exceptions.md says in section 3 of the block. That setFlags and the builders are stuck too, and that a fault ends
the host's wait, is the model's reading of section 1 (log 13, DEDUCED); that construct may run from a faulted machine is
log 12 (DEDUCED). -/
def Obligations.OnlyConstructionClearsFault : Prop :=
  (∀ (i : Instr) (s : State), s.fault ≠ .none → (∀ pin tb, i ≠ .construct pin tb) →
    exec i s = .fault (.stuck s.fault)) ∧
  (∀ s t : State, s.fault ≠ .none → step s = .next t →
    s.nextTurn = .host ∧ ∃ pin tb rest, decode s.inbox = .ok (.construct pin tb, rest))

/-- A step that raises a fault changes nothing else of the block, the host-side state and the engine. spec/60_exceptions.md
section 1 says so of a fault in a STEP's admission; that every fault is a next state with the fault register alone
written is the model's reading (log 14, DEDUCED), and what HW_FAIL leaves on the line the spec leaves open. -/
def Obligations.FaultsArePrecise : Prop :=
  ∀ s t : State, s.fault = .none → step s = .next t → t.fault ≠ .none →
    t.pin = s.pin ∧ t.tb = s.tb ∧ t.profile = s.profile ∧ t.impl = s.impl ∧ t.blk = s.blk ∧ t.dst = s.dst ∧
    t.resp = s.resp ∧ t.flags = s.flags ∧ t.begun = s.begun ∧ t.inFlight = s.inFlight ∧ t.idleLevel = s.idleLevel ∧
    t.line = s.line ∧ t.wait = s.wait ∧ t.tx = s.tx ∧ t.buf = s.buf ∧ t.wave = s.wave

/-- spec/60_exceptions.md R224: what is silently ignored is a next state with no effect. -/
def Obligations.IgnoredCallsHaveNoEffect : Prop :=
  ∀ s : State, s.fault = .none →
    exec (.sendRaw none) s = .next s ∧ exec (.sendRaw (some [])) s = .next s ∧
    (s.begun = false →
      (∀ payload, exec (.sendRaw payload) s = .next s) ∧
      (∀ mask index r g b, exec (.set mask index r g b) s = .next s) ∧
      (∀ index r g b, exec (.setPixelColor index r g b) s = .next s) ∧
      (∀ r g b, exec (.fill r g b) s = .next s) ∧
      (∀ mask index r g b, exec (.rand mask index r g b) s = .next s) ∧
      exec .hostEnd s = .next s) ∧
    (s.begun = true → exec .hostBegin s = .next s)

/-- spec/60_exceptions.md, section 1: construction refuses TB below 2; otherwise it fails or succeeds as the allocation does;
after a failure no block exists. How the draw is taken, `nextFail`, is the model's choice (log 4, DESIGN CHOICE); that
construct runs from any state, and that no block exists exactly under the two fault codes, is log 12 (DEDUCED). -/
def Obligations.ConstructionFaults : Prop :=
  ∀ (pin : BitVec 32) (tb : Byte) (s : State), s.impl.ratios = defaultRatios →
    (tb.toNat < 2 → exec (.construct pin tb) s = .next { s with fault := .configInvalid }) ∧
    (2 ≤ tb.toNat → s.nextFail = true → ∃ t, exec (.construct pin tb) s = .next t ∧ t.fault = .allocFail) ∧
    (2 ≤ tb.toNat → s.nextFail = false → ∃ t, exec (.construct pin tb) s = .next t ∧ t.fault = .none) ∧
    (∀ t, exec (.construct pin tb) s = .next t → (t.blockExists = true ↔ t.fault = .none))

/-- The values of spec/10_state.md, section 7, after a successful construction, what RESET restores and leaves alone, and
that the machine right after reset has the construction's values too, with TB = 70. That State.reset is a construction
with TB = 70 is the model's choice (log 11, DESIGN CHOICE); that a construction runs from any state, and which calls,
transmissions, requests and choices it drops or keeps, is log 12 (DEDUCED); how the allocation answers is log 4 (DESIGN
CHOICE), and in_flight as the sign of a controller at RESET is log 15 (DEDUCED). -/
def Obligations.ConstructionState : Prop :=
  (∀ (pin : BitVec 32) (tb : Byte) (s : State), configOk tb s.impl.ratios = true → s.nextFail = false →
    ∃ t, exec (.construct pin tb) s = .next t ∧
      t.blk = ⟨.leading, 0, 0, none⟩ ∧ t.fault = .none ∧ t.tb = tb ∧ t.pin = pin ∧
      t.profile = profileOf tb s.impl.ratios ∧ t.flags = 0#3 ∧ t.begun = false ∧ t.inFlight = false ∧
      t.tx = none ∧ t.wait = none ∧ t.impl = s.impl ∧ t.inbox = s.inbox ∧ t.turns = s.turns ∧
      t.dummies = s.dummies) ∧
  (∀ s : State, s.fault = .none → s.inFlight = false →
    exec .reset s = .next { s with blk := ⟨.leading, 0, 0, none⟩ }) ∧
  State.reset.blk = ⟨.leading, 0, 0, none⟩ ∧ State.reset.fault = .none ∧ State.reset.tb = 70#8 ∧
  State.reset.profile = ⟨70, 70, 210, 70, 69, 489⟩ ∧ State.reset.flags = 0#3 ∧ State.reset.begun = false ∧
  State.reset.inFlight = false ∧ State.reset.normalEnd

/-! ### The command builders -/

/-- spec/44_command_encoder.md R180: setFlags takes the low three bits and nothing else, whatever the high bits are, begun or
not, and changes no packet in flight or waiting (R188). -/
def Obligations.SetFlagsTakesLowBits : Prop :=
  ∀ (f : Byte) (s : State), s.fault = .none →
    exec (.setFlags f) s = .next { s with flags := f.extractLsb' 0 3 } ∧
    exec (.setFlags f) s = exec (.setFlags (f &&& 0b111#8)) s ∧
    (∀ t, exec (.setFlags f) s = .next t →
      t.opcSet = 0x30#8 ||| (f &&& 0b111#8) ∧ t.opcFill = 0x18#8 ||| (f &&& 0b111#8) ∧
      t.opcRand = 0x48#8 ||| (f &&& 0b111#8) ∧ t.tx = s.tx ∧ t.wait = s.wait)

/-- spec/44_command_encoder.md R181: setPixelMasked builds its payload with the current flags and routes it through
sendRaw; while begun with no packet in flight, it starts that packet. -/
def Obligations.SetSendsItsPayload : Prop :=
  ∀ (mask index r g b : Byte) (s : State),
    exec (.set mask index r g b) s =
      exec (.sendRaw (some [0b00110#5 ++ s.flags, mask, index, r, g, b])) s ∧
    (s.fault = .none → s.begun = true → s.inFlight = false →
      exec (.set mask index r g b) s = .next
        { s with
          inFlight := true
          wait := none
          tx := some ⟨.packet [0b00110#5 ++ s.flags, mask, index, r, g, b], .stepping, s.idleLevel⟩ })

/-- spec/44_command_encoder.md R182: setPixelColor is setPixelMasked with mask 0xFF. -/
def Obligations.PixelColorIsSetAllMasked : Prop :=
  ∀ (index r g b : Byte) (s : State),
    exec (.setPixelColor index r g b) s = exec (.set 0xFF#8 index r g b) s ∧
    (s.fault = .none → s.begun = true → s.inFlight = false →
      exec (.setPixelColor index r g b) s = .next
        { s with
          inFlight := true
          wait := none
          tx := some ⟨.packet [0b00110#5 ++ s.flags, 0xFF#8, index, r, g, b], .stepping, s.idleLevel⟩ })

/-- spec/44_command_encoder.md R183: fill builds its payload with the current flags and routes it through sendRaw. -/
def Obligations.FillSendsItsPayload : Prop :=
  ∀ (r g b : Byte) (s : State),
    exec (.fill r g b) s = exec (.sendRaw (some [0b00011#5 ++ s.flags, r, g, b])) s ∧
    (s.fault = .none → s.begun = true → s.inFlight = false →
      exec (.fill r g b) s = .next
        { s with
          inFlight := true
          wait := none
          tx := some ⟨.packet [0b00011#5 ++ s.flags, r, g, b], .stepping, s.idleLevel⟩ })

/-- spec/44_command_encoder.md R184: setRandom packs the low nibbles of mask and index, and routes its payload through
sendRaw. -/
def Obligations.RandSendsItsPayload : Prop :=
  ∀ (mask index r g b : Byte) (s : State),
    exec (.rand mask index r g b) s =
      exec (.sendRaw (some
        [0b01001#5 ++ s.flags, (mask.extractLsb' 0 4 ++ index.extractLsb' 0 4 : BitVec 8), r, g, b])) s ∧
    (s.fault = .none → s.begun = true → s.inFlight = false →
      exec (.rand mask index r g b) s = .next
        { s with
          inFlight := true
          wait := none
          tx := some ⟨.packet
            [0b01001#5 ++ s.flags, (mask.extractLsb' 0 4 ++ index.extractLsb' 0 4 : BitVec 8), r, g, b],
            .stepping, s.idleLevel⟩ })

/-- What the commands and sendRaw leave unchanged: they touch only the packet in flight and the host's own wait
(spec/45_transmission_controller.md R202). -/
def Obligations.CommandFrame : Prop :=
  ∀ (i : Instr) (s t : State),
    (∃ mask index r g b, i = .set mask index r g b ∨ i = .rand mask index r g b ∨ i = .setPixelColor index r g b ∨
      i = .fill r g b ∨ ∃ payload, i = .sendRaw payload) →
    exec i s = .next t →
    t.pin = s.pin ∧ t.tb = s.tb ∧ t.profile = s.profile ∧ t.impl = s.impl ∧ t.blk = s.blk ∧ t.fault = s.fault ∧
    t.dst = s.dst ∧ t.resp = s.resp ∧ t.flags = s.flags ∧ t.begun = s.begun ∧ t.idleLevel = s.idleLevel ∧
    t.line = s.line ∧ t.buf = s.buf ∧ t.wave = s.wave ∧ t.inbox = s.inbox ∧ t.turns = s.turns ∧
    t.fails = s.fails ∧ t.dummies = s.dummies ∧ t.seq = s.seq ∧
    (t.tx = s.tx ∨ s.inFlight = false) ∧ (s.inFlight = true → t.inFlight = true)

/-! ### The controller -/

/-- spec/45_transmission_controller.md R202: sendRaw while begun, with a payload: it starts the packet, or holds; a payload
over MAX_PAYLOAD faults at the engine's first STEP. -/
def Obligations.SendRawStartsOrHolds : Prop :=
  ∀ (p : Payload) (s : State), s.fault = .none → s.begun = true → p ≠ [] →
    (s.inFlight = false → exec (.sendRaw (some p)) s = .next
      { s with inFlight := true, wait := none, tx := some ⟨.packet p, .stepping, s.idleLevel⟩ }) ∧
    (s.inFlight = true → exec (.sendRaw (some p)) s = .next { s with wait := some (.sendRaw p) }) ∧
    (∀ t cap, s.inFlight = false → s.impl.maxPayload < p.length → exec (.sendRaw (some p)) s = .next t →
      runTurn (.invoke cap) t = .next { t with fault := .payloadTooLong })

/-- spec/45_transmission_controller.md R203: sendRaw's wait is lifted when no packet is in flight, and not before.
That the host looks again on a turn of its own is the model's choice (log 21, DESIGN CHOICE). -/
def Obligations.HeldSendRawResumes : Prop :=
  ∀ (s : State) (p : Payload) (ts : List Turn), s.fault = .none → s.wait = some (.sendRaw p) → s.turns = .host :: ts →
    (s.inFlight = true → step s = .next { s with turns := ts }) ∧
    (s.inFlight = false → step s = .next
      { s with
        turns := ts
        inFlight := true
        wait := none
        tx := some ⟨.packet p, .stepping, s.idleLevel⟩ })

/-- spec/45_transmission_controller.md R203: while a packet is in flight no step puts another in its place; only its own done
event, or a construction, ends its flight. -/
def Obligations.AtMostOneInFlight : Prop :=
  ∀ (s t : State) (p : Payload) (phase : TxPhase) (idle : Level), s.HostInv → s.tx = some ⟨.packet p, phase, idle⟩ →
    step s = .next t →
    (∃ phase', t.tx = some ⟨.packet p, phase', idle⟩ ∧ t.inFlight = true) ∨
    (s.nextTurn = .done ∧ phase = .idled ∧ t.tx = none ∧ t.inFlight = false) ∨
    (s.nextTurn = .host ∧ ∃ pin tb rest, decode s.inbox = .ok (.construct pin tb, rest))

/-- spec/45_transmission_controller.md R200: begin while not begun enables the output and sets the idle level HIGH, or fails
as the enabling does (a draw, log 4); nothing else changes, and the line does not. -/
def Obligations.BeginEnables : Prop :=
  ∀ s : State, s.fault = .none → s.begun = false →
    (∀ fs, s.fails = false :: fs →
      exec .hostBegin s = .next { s with fails := fs, idleLevel := .high, begun := true }) ∧
    (∀ fs, s.fails = true :: fs → exec .hostBegin s = .next { s with fails := fs, fault := .hwFail }) ∧
    (s.fails = [] → exec .hostBegin s = .next
      (if Config.freeFail s.seq then { s with seq := s.seq + 1, fault := .hwFail }
       else { s with seq := s.seq + 1, idleLevel := .high, begun := true }))

/-- spec/45_transmission_controller.md R201, up to its wait: end while begun with no packet in flight forces the idle level LOW,
starts the dummy transmission and holds. How the dummy's content is drawn is log 5; that the call ends its first part at a
hold, and that the dummy goes to the engine's buffer at once, as draining, leaving block and in_flight as they are, is
the model's choice (log 20, DESIGN CHOICE). -/
def Obligations.EndStartsDummy : Prop :=
  ∀ s : State, s.fault = .none → s.begun = true → s.inFlight = false →
    (∀ x xs, s.dummies = x :: xs →
      exec .hostEnd s = .next
        { s with
          dummies := xs
          idleLevel := .low
          buf := s.buf ++ waveOf x
          tx := some ⟨.dummy, .draining, .low⟩
          wait := some .dummyDone }) ∧
    (s.dummies = [] →
      exec .hostEnd s = .next
        { s with
          seq := s.seq + 1
          idleLevel := .low
          buf := s.buf ++ waveOf (Config.freeDummy s.seq)
          tx := some ⟨.dummy, .draining, .low⟩
          wait := some .dummyDone })

/-- spec/60_exceptions.md R225: end while a packet is in flight is refused; `begun` is checked first (R229). -/
def Obligations.EndInFlightRaises : Prop :=
  ∀ s : State, s.fault = .none → s.begun = true → s.inFlight = true →
    exec .hostEnd s = .next { s with fault := .endInFlight }

/-- spec/45_transmission_controller.md R201, the whole of it: once the engine has sent what was written, settled and raised the
done event, end's wait is over, the output is disabled, the line is LOW and the block is as it was. The
parts of the call, and where the dummy goes, are the model's choice (logs 5, 18 and 20, DESIGN CHOICE), and so is how the
disabling answers (log 4, DESIGN CHOICE). -/
def Obligations.EndSequence : Prop :=
  ∀ (s t : State) (fs : List Bool), s.fault = .none → s.begun = true → s.inFlight = false → s.fails = false :: fs →
    exec .hostEnd s = .next t →
    ∃ u, runTurns (List.replicate t.buf.length .send ++ [.settle, .done, .host]) t = some u ∧
      u.begun = false ∧ u.line = .low ∧ u.idleLevel = .low ∧ u.wait = none ∧ u.tx = none ∧ u.blk = s.blk ∧
      u.inFlight = false ∧ u.fault = .none ∧ u.wave = s.wave ++ t.buf

/-- spec/45_transmission_controller.md R212: a failed disabling is HW_FAIL, and so is a failed transmission. How the failure
is drawn is the model's choice (log 4, DESIGN CHOICE), and so is the disabling on a later turn of the host (log 20, DESIGN
CHOICE); that the line, the buffer and what the line has carried stay exactly as they were is the model's reading (log 14,
DEDUCED, unsafe there), since the spec leaves open what HW_FAIL leaves on the line. -/
def Obligations.HardwareFailures : Prop :=
  (∀ (s : State) (ts : List Turn) (fs : List Bool), s.fault = .none → s.wait = some .dummyDone → s.tx = none →
    s.turns = .host :: ts → s.fails = true :: fs →
    step s = .next { s with turns := ts, fails := fs, fault := .hwFail }) ∧
  (∀ (s : State) (tx : Transmission), s.fault = .none → s.tx = some tx →
    runTurn .fail s = .next { s with fault := .hwFail })

/-! ### The engine -/

/-- spec/45_transmission_controller.md R206 to R208: the engine's turn is one STEP with its packet's payload and a capacity
within the bound; after Complete it invokes no more. -/
def Obligations.EngineInvokesStep : Prop :=
  ∀ (s t : State) (cap : Nat) (p : Payload) (idle : Level), s.fault = .none →
    s.tx = some ⟨.packet p, .stepping, idle⟩ → cap ≤ s.impl.maxBatch → exec (.step cap p) s = .next t →
    (t.fault ≠ .none → runTurn (.invoke cap) s = .next t) ∧
    (t.fault = .none → t.resp = some ⟨t.dst.length, .paused⟩ → runTurn (.invoke cap) s = .next t) ∧
    (t.fault = .none → t.resp = some ⟨t.dst.length, .complete⟩ →
      runTurn (.invoke cap) s = .next { t with tx := some ⟨.packet p, .draining, idle⟩ } ∧
      ∀ c, runTurn (.invoke c) { t with tx := some ⟨.packet p, .draining, idle⟩ } =
        .next { t with tx := some ⟨.packet p, .draining, idle⟩ })

/-- spec/45_transmission_controller.md R210 and R211: a segment goes on the line in the order written; the line goes idle only
when all are sent, at the idle level in force. One segment a move, and the settling as a move, is the model's choice
(log 18, DESIGN CHOICE). -/
def Obligations.LineFollowsTheBuffer : Prop :=
  (∀ (s : State) (seg : Segment) (rest : List Segment), s.fault = .none → s.buf = seg :: rest →
    runTurn .send s = .next { s with line := seg.level, wave := s.wave ++ [seg], buf := rest }) ∧
  (∀ (s : State) (source : TxSource) (idle : Level), s.fault = .none → s.tx = some ⟨source, .draining, idle⟩ →
    (s.buf ≠ [] → runTurn .settle s = .next s) ∧
    (s.buf = [] → runTurn .settle s = .next { s with line := idle, tx := some ⟨source, .idled, idle⟩ }))

/-- spec/45_transmission_controller.md R209: the done event ends a packet's flight, only after its Complete, with every symbol
sent and the line at the idle level. That the settling and the done event are moves of their own is the model's choice
(log 18, DESIGN CHOICE). -/
def Obligations.DoneEventEndsFlight : Prop :=
  ∀ s : State, s.fault = .none →
    (∀ p idle, s.tx = some ⟨.packet p, .idled, idle⟩ →
      runTurn .done s = .next { s with inFlight := false, tx := none }) ∧
    (∀ source phase idle, s.tx = some ⟨source, phase, idle⟩ → phase ≠ .idled → runTurn .done s = .next s) ∧
    (s.DrivenInv → ∀ t, s.inFlight = true → runTurn .done s = .next t → t.inFlight = false →
      s.blk = Block.initial ∧ s.buf = [] ∧ ∃ p, s.tx = some ⟨.packet p, .idled, s.line⟩)

/-- spec/45_transmission_controller.md R210, with R206, R160 and R211: a packet the engine carries from its start until the
line is idle puts exactly `Seq(P)` on the line, after what was still to be sent, whatever capacities it offers and however
its moves interleave. -/
def Obligations.PacketReachesTheLine : Prop :=
  ∀ (s u : State) (ts : List Turn) (p : Payload) (idle : Level), s.BlockInv → s.blk = Block.initial →
    s.fault = .none → s.tx = some ⟨.packet p, .stepping, idle⟩ → (∀ t ∈ ts, turnCarries t = true) →
    runTurns ts s = some u → u.tx = some ⟨.packet p, .idled, idle⟩ →
    u.wave = s.wave ++ s.buf ++ waveOf (packetSeq s.profile p) ∧ u.line = idle ∧ u.blk = Block.initial

/-! ### The whole machine -/

/-- A step on the host's turn, in no call, is `exec` of the request at the head of the inbox, with that request's bytes and
the turn taken. -/
def Obligations.StepRunsTheRequest : Prop :=
  ∀ (s : State) (i : Instr) (rest : List Byte), s.nextTurn = .host → s.wait = none →
    decode s.inbox = .ok (i, rest) → step s = exec i { s.afterTurn with inbox := rest }

/-- The block's invariant holds right after reset. -/
def Obligations.ResetBlockInv : Prop := State.reset.BlockInv

/-- The block's invariant is kept by every step: `se` is 0 between requests (spec/42_symbol_emitter.md R142), `bk` stays
below 8N (spec/10_state.md R23), the latch holds the packet (R26) and the profile is the one construction computed
(spec/40_timing_profile.md R109). -/
def Obligations.StepKeepsBlockInv : Prop :=
  ∀ s t : State, s.BlockInv → step s = .next t → t.BlockInv

/-- spec/43_waveform_encoder.md R155, "not reached": from a healthy block no step stops outside the pseudocode. -/
def Obligations.NoStepFallsThrough : Prop :=
  ∀ s : State, s.BlockInv → ∀ r, step s = .fault r → r = .stuck s.fault ∧ s.fault ≠ .none

/-- The invariant of host and engine holds right after reset. -/
def Obligations.ResetHostInv : Prop := State.reset.HostInv

/-- The invariant of host and engine is kept by every step: in_flight is true exactly while a packet is in flight
(spec/10_state.md R38), and a transmission or a held call only exists while begun. -/
def Obligations.StepKeepsHostInv : Prop :=
  ∀ s t : State, s.HostInv → step s = .next t → t.HostInv

/-- The controller's invariant holds right after reset. -/
def Obligations.ResetDrivenInv : Prop := State.reset.DrivenInv

/-- spec/45_transmission_controller.md R206: while the engine's STEPs are the only STEPs, a block with no packet to step is in its
construction state, and a latched payload is the packet's. -/
def Obligations.StepKeepsDrivenInv : Prop :=
  ∀ s t : State, s.BlockInv → s.HostInv → s.DrivenInv → s.directStep = false → step s = .next t → t.DrivenInv

/-- spec/20_memory.md R63 and R65, spec/45_transmission_controller.md R202 and R207: while the engine's STEPs are the only
STEPs, no step raises CAP_OUT_OF_RANGE, EMPTY_PAYLOAD or PAYLOAD_CHANGED. -/
def Obligations.ControllerKeepsTheCallersDuties : Prop :=
  ∀ s t : State, s.BlockInv → s.HostInv → s.DrivenInv → s.directStep = false → s.fault = .none → step s = .next t →
    t.fault ≠ .capOutOfRange ∧ t.fault ≠ .emptyPayload ∧ t.fault ≠ .payloadChanged
end

