-- ==== Sys2Proof/Laws/Decode.lean ====
section
/-! SUPPORT. The decoder's parts: the selector table is unambiguous, and each transport field reads back. -/

namespace Sys2Proof

/-- No first byte matches two rows of the selector table. -/
theorem selectorTable_disjoint :
    selectorTable.Pairwise fun a b => a.pattern &&& (a.mask &&& b.mask) ≠ b.pattern &&& (a.mask &&& b.mask) := by
  decide

/-- Every opcode byte of the SET kind selects SET (spec/30_encoding.md R81). -/
theorem selectorOf_set (flags : BitVec 3) : selectorOf (opcodeByte kindSet flags) = some .set := by
  revert flags
  decide

/-- Every opcode byte of the FILL kind selects FILL (spec/30_encoding.md R81). -/
theorem selectorOf_fill (flags : BitVec 3) : selectorOf (opcodeByte kindFill flags) = some .fill := by
  revert flags
  decide

/-- Every opcode byte of the RAND kind selects RAND (spec/30_encoding.md R81). -/
theorem selectorOf_rand (flags : BitVec 3) : selectorOf (opcodeByte kindRand flags) = some .rand := by
  revert flags
  decide

/-- A number's bytes read back. -/
theorem readNumber_numberBytes (rest : List Byte) :
    ∀ more n : Nat, n < 128 ^ (more + 1) → readNumber (numberBytes more n ++ rest) = some (n, rest) := by
  intro more
  induction more with
  | zero =>
    intro n h
    have hm : n % 256 = n := by omega
    have hn : n < 128 := by simpa using h
    simp [numberBytes, readNumber, hm, hn]
  | succ more ih =>
    intro n h
    unfold numberBytes
    by_cases hs : n < 128
    · have hm : n % 256 = n := by omega
      simp [readNumber, hs, hm]
    · have hd : n / 128 < 128 ^ (more + 1) := by
        rw [Nat.div_lt_iff_lt_mul (by omega), ← pow_succ]
        exact h
      have hm : (128 + n % 128) % 256 = 128 + n % 128 := by omega
      simp only [if_neg hs, List.cons_append, readNumber, BitVec.toNat_ofNat, Nat.reducePow, hm, ih _ hd]
      rw [if_neg (by omega)]
      congr 2
      omega

/-- A number of any size reads back. -/
theorem readNumber_writeNumber (n : Nat) (rest : List Byte) :
    readNumber (writeNumber n ++ rest) = some (n, rest) :=
  readNumber_numberBytes rest _ _ (lt_of_lt_of_le Nat.lt_log2_self (Nat.pow_le_pow_left (by decide) _))

/-- A 32-bit transport field reads back. -/
theorem readField_writeField {n : Nat} (hn : n < 4294967296) (rest : List Byte) :
    readField (writeField n ++ rest) = some (n, rest) := by
  simp only [writeField, readField, List.cons_append, List.nil_append, BitVec.toNat_ofNat]
  congr 2
  omega

/-- A byte buffer of any length reads back. -/
theorem readBuffer_writeBuffer (p : Payload) (rest : List Byte) :
    readBuffer (writeBuffer p ++ rest) = some (p, rest) := by
  simp [readBuffer, writeBuffer, readNumber_writeNumber]

/-- cap's bus field holds exactly the numbers that need no more bits than MAX_BATCH (spec/30_encoding.md R78). -/
theorem capWidth_le_iff (maxBatch w : Nat) : capWidth maxBatch ≤ w ↔ maxBatch + 1 ≤ 2 ^ w := by
  unfold capWidth
  split
  · next h => simpa [h] using Nat.one_le_two_pow
  · next h => rw [Nat.succ_le_iff, Nat.succ_le_iff, Nat.log2_lt h]

/-- Every capacity within MAX_BATCH fits its bus field. -/
theorem fitsCapField_of_le {maxBatch cap : Nat} (h : cap ≤ maxBatch) : fitsCapField maxBatch cap = true := by
  have := (capWidth_le_iff maxBatch _).1 le_rfl
  simp only [fitsCapField, decide_eq_true_eq]
  omega

/-- The bus request of a STEP whose cap fits carries that cap. -/
theorem busRequest_step {maxBatch cap : Nat} (h : fitsCapField maxBatch cap = true) (p : Payload) :
    ∃ r, busRequest maxBatch (.step cap p) = some r ∧ r.op = 0 ∧ r.instr = .step cap p := by
  refine ⟨_, if_pos h, rfl, ?_⟩
  have hc : cap < 2 ^ capWidth maxBatch := by simpa [fitsCapField] using h
  simp [BusRequest.instr, Nat.mod_eq_of_lt hc]

/-- The two fields of an opcode byte read back (spec/30_encoding.md R81). -/
theorem opcodeFields_opcodeByte (kind : BitVec 5) (flags : BitVec 3) :
    opcodeFields (opcodeByte kind flags) = (kind, flags) := by
  revert kind flags
  decide

end Sys2Proof
end

