-- ==== Sys2Proof/Laws/State.lean ====
section
/-! SUPPORT. One lemma per field per update, all true by unfolding the update, so that no later proof unfolds one. -/

namespace Sys2Proof.Machine

/-! ### Raising a fault -/

@[simp] theorem raise_pin (code : FaultCode) (s : State) : (State.raise code s).pin = s.pin := rfl
@[simp] theorem raise_tb (code : FaultCode) (s : State) : (State.raise code s).tb = s.tb := rfl
@[simp] theorem raise_profile (code : FaultCode) (s : State) : (State.raise code s).profile = s.profile := rfl
@[simp] theorem raise_impl (code : FaultCode) (s : State) : (State.raise code s).impl = s.impl := rfl
@[simp] theorem raise_blk (code : FaultCode) (s : State) : (State.raise code s).blk = s.blk := rfl
@[simp] theorem raise_fault (code : FaultCode) (s : State) : (State.raise code s).fault = code := rfl
@[simp] theorem raise_dst (code : FaultCode) (s : State) : (State.raise code s).dst = s.dst := rfl
@[simp] theorem raise_resp (code : FaultCode) (s : State) : (State.raise code s).resp = s.resp := rfl
@[simp] theorem raise_flags (code : FaultCode) (s : State) : (State.raise code s).flags = s.flags := rfl
@[simp] theorem raise_begun (code : FaultCode) (s : State) : (State.raise code s).begun = s.begun := rfl
@[simp] theorem raise_inFlight (code : FaultCode) (s : State) : (State.raise code s).inFlight = s.inFlight := rfl
@[simp] theorem raise_idleLevel (code : FaultCode) (s : State) : (State.raise code s).idleLevel = s.idleLevel := rfl
@[simp] theorem raise_line (code : FaultCode) (s : State) : (State.raise code s).line = s.line := rfl
@[simp] theorem raise_wait (code : FaultCode) (s : State) : (State.raise code s).wait = s.wait := rfl
@[simp] theorem raise_tx (code : FaultCode) (s : State) : (State.raise code s).tx = s.tx := rfl
@[simp] theorem raise_buf (code : FaultCode) (s : State) : (State.raise code s).buf = s.buf := rfl
@[simp] theorem raise_wave (code : FaultCode) (s : State) : (State.raise code s).wave = s.wave := rfl
@[simp] theorem raise_inbox (code : FaultCode) (s : State) : (State.raise code s).inbox = s.inbox := rfl
@[simp] theorem raise_turns (code : FaultCode) (s : State) : (State.raise code s).turns = s.turns := rfl
@[simp] theorem raise_fails (code : FaultCode) (s : State) : (State.raise code s).fails = s.fails := rfl
@[simp] theorem raise_dummies (code : FaultCode) (s : State) : (State.raise code s).dummies = s.dummies := rfl
@[simp] theorem raise_seq (code : FaultCode) (s : State) : (State.raise code s).seq = s.seq := rfl

/-! ### Taking a turn -/

@[simp] theorem afterTurn_pin (s : State) : (State.afterTurn s).pin = s.pin := rfl
@[simp] theorem afterTurn_tb (s : State) : (State.afterTurn s).tb = s.tb := rfl
@[simp] theorem afterTurn_profile (s : State) : (State.afterTurn s).profile = s.profile := rfl
@[simp] theorem afterTurn_impl (s : State) : (State.afterTurn s).impl = s.impl := rfl
@[simp] theorem afterTurn_blk (s : State) : (State.afterTurn s).blk = s.blk := rfl
@[simp] theorem afterTurn_fault (s : State) : (State.afterTurn s).fault = s.fault := rfl
@[simp] theorem afterTurn_dst (s : State) : (State.afterTurn s).dst = s.dst := rfl
@[simp] theorem afterTurn_resp (s : State) : (State.afterTurn s).resp = s.resp := rfl
@[simp] theorem afterTurn_flags (s : State) : (State.afterTurn s).flags = s.flags := rfl
@[simp] theorem afterTurn_begun (s : State) : (State.afterTurn s).begun = s.begun := rfl
@[simp] theorem afterTurn_inFlight (s : State) : (State.afterTurn s).inFlight = s.inFlight := rfl
@[simp] theorem afterTurn_idleLevel (s : State) : (State.afterTurn s).idleLevel = s.idleLevel := rfl
@[simp] theorem afterTurn_line (s : State) : (State.afterTurn s).line = s.line := rfl
@[simp] theorem afterTurn_wait (s : State) : (State.afterTurn s).wait = s.wait := rfl
@[simp] theorem afterTurn_tx (s : State) : (State.afterTurn s).tx = s.tx := rfl
@[simp] theorem afterTurn_buf (s : State) : (State.afterTurn s).buf = s.buf := rfl
@[simp] theorem afterTurn_wave (s : State) : (State.afterTurn s).wave = s.wave := rfl
@[simp] theorem afterTurn_inbox (s : State) : (State.afterTurn s).inbox = s.inbox := rfl
@[simp] theorem afterTurn_turns (s : State) : (State.afterTurn s).turns = s.turns.tail := rfl
@[simp] theorem afterTurn_fails (s : State) : (State.afterTurn s).fails = s.fails := rfl
@[simp] theorem afterTurn_dummies (s : State) : (State.afterTurn s).dummies = s.dummies := rfl
@[simp] theorem afterTurn_seq (s : State) : (State.afterTurn s).seq = if s.turns = [] then s.seq + 1 else s.seq := rfl

/-! ### Reading a request -/

@[simp] theorem consume_pin (rest : List Byte) (s : State) : (State.consume rest s).pin = s.pin := rfl
@[simp] theorem consume_tb (rest : List Byte) (s : State) : (State.consume rest s).tb = s.tb := rfl
@[simp] theorem consume_profile (rest : List Byte) (s : State) : (State.consume rest s).profile = s.profile := rfl
@[simp] theorem consume_impl (rest : List Byte) (s : State) : (State.consume rest s).impl = s.impl := rfl
@[simp] theorem consume_blk (rest : List Byte) (s : State) : (State.consume rest s).blk = s.blk := rfl
@[simp] theorem consume_fault (rest : List Byte) (s : State) : (State.consume rest s).fault = s.fault := rfl
@[simp] theorem consume_dst (rest : List Byte) (s : State) : (State.consume rest s).dst = s.dst := rfl
@[simp] theorem consume_resp (rest : List Byte) (s : State) : (State.consume rest s).resp = s.resp := rfl
@[simp] theorem consume_flags (rest : List Byte) (s : State) : (State.consume rest s).flags = s.flags := rfl
@[simp] theorem consume_begun (rest : List Byte) (s : State) : (State.consume rest s).begun = s.begun := rfl
@[simp] theorem consume_inFlight (rest : List Byte) (s : State) : (State.consume rest s).inFlight = s.inFlight := rfl
@[simp] theorem consume_idleLevel (rest : List Byte) (s : State) : (State.consume rest s).idleLevel = s.idleLevel := rfl
@[simp] theorem consume_line (rest : List Byte) (s : State) : (State.consume rest s).line = s.line := rfl
@[simp] theorem consume_wait (rest : List Byte) (s : State) : (State.consume rest s).wait = s.wait := rfl
@[simp] theorem consume_tx (rest : List Byte) (s : State) : (State.consume rest s).tx = s.tx := rfl
@[simp] theorem consume_buf (rest : List Byte) (s : State) : (State.consume rest s).buf = s.buf := rfl
@[simp] theorem consume_wave (rest : List Byte) (s : State) : (State.consume rest s).wave = s.wave := rfl
@[simp] theorem consume_inbox (rest : List Byte) (s : State) : (State.consume rest s).inbox = rest := rfl
@[simp] theorem consume_turns (rest : List Byte) (s : State) : (State.consume rest s).turns = s.turns := rfl
@[simp] theorem consume_fails (rest : List Byte) (s : State) : (State.consume rest s).fails = s.fails := rfl
@[simp] theorem consume_dummies (rest : List Byte) (s : State) : (State.consume rest s).dummies = s.dummies := rfl
@[simp] theorem consume_seq (rest : List Byte) (s : State) : (State.consume rest s).seq = s.seq := rfl

/-! ### Using an answer -/

@[simp] theorem afterFail_pin (s : State) : (State.afterFail s).pin = s.pin := rfl
@[simp] theorem afterFail_tb (s : State) : (State.afterFail s).tb = s.tb := rfl
@[simp] theorem afterFail_profile (s : State) : (State.afterFail s).profile = s.profile := rfl
@[simp] theorem afterFail_impl (s : State) : (State.afterFail s).impl = s.impl := rfl
@[simp] theorem afterFail_blk (s : State) : (State.afterFail s).blk = s.blk := rfl
@[simp] theorem afterFail_fault (s : State) : (State.afterFail s).fault = s.fault := rfl
@[simp] theorem afterFail_dst (s : State) : (State.afterFail s).dst = s.dst := rfl
@[simp] theorem afterFail_resp (s : State) : (State.afterFail s).resp = s.resp := rfl
@[simp] theorem afterFail_flags (s : State) : (State.afterFail s).flags = s.flags := rfl
@[simp] theorem afterFail_begun (s : State) : (State.afterFail s).begun = s.begun := rfl
@[simp] theorem afterFail_inFlight (s : State) : (State.afterFail s).inFlight = s.inFlight := rfl
@[simp] theorem afterFail_idleLevel (s : State) : (State.afterFail s).idleLevel = s.idleLevel := rfl
@[simp] theorem afterFail_line (s : State) : (State.afterFail s).line = s.line := rfl
@[simp] theorem afterFail_wait (s : State) : (State.afterFail s).wait = s.wait := rfl
@[simp] theorem afterFail_tx (s : State) : (State.afterFail s).tx = s.tx := rfl
@[simp] theorem afterFail_buf (s : State) : (State.afterFail s).buf = s.buf := rfl
@[simp] theorem afterFail_wave (s : State) : (State.afterFail s).wave = s.wave := rfl
@[simp] theorem afterFail_inbox (s : State) : (State.afterFail s).inbox = s.inbox := rfl
@[simp] theorem afterFail_turns (s : State) : (State.afterFail s).turns = s.turns := rfl
@[simp] theorem afterFail_fails (s : State) : (State.afterFail s).fails = s.fails.tail := rfl
@[simp] theorem afterFail_dummies (s : State) : (State.afterFail s).dummies = s.dummies := rfl
@[simp] theorem afterFail_seq (s : State) : (State.afterFail s).seq = if s.fails = [] then s.seq + 1 else s.seq := rfl

/-! ### A held call -/

@[simp] theorem hold_pin (w : HostWait) (s : State) : (State.hold w s).pin = s.pin := rfl
@[simp] theorem hold_tb (w : HostWait) (s : State) : (State.hold w s).tb = s.tb := rfl
@[simp] theorem hold_profile (w : HostWait) (s : State) : (State.hold w s).profile = s.profile := rfl
@[simp] theorem hold_impl (w : HostWait) (s : State) : (State.hold w s).impl = s.impl := rfl
@[simp] theorem hold_blk (w : HostWait) (s : State) : (State.hold w s).blk = s.blk := rfl
@[simp] theorem hold_fault (w : HostWait) (s : State) : (State.hold w s).fault = s.fault := rfl
@[simp] theorem hold_dst (w : HostWait) (s : State) : (State.hold w s).dst = s.dst := rfl
@[simp] theorem hold_resp (w : HostWait) (s : State) : (State.hold w s).resp = s.resp := rfl
@[simp] theorem hold_flags (w : HostWait) (s : State) : (State.hold w s).flags = s.flags := rfl
@[simp] theorem hold_begun (w : HostWait) (s : State) : (State.hold w s).begun = s.begun := rfl
@[simp] theorem hold_inFlight (w : HostWait) (s : State) : (State.hold w s).inFlight = s.inFlight := rfl
@[simp] theorem hold_idleLevel (w : HostWait) (s : State) : (State.hold w s).idleLevel = s.idleLevel := rfl
@[simp] theorem hold_line (w : HostWait) (s : State) : (State.hold w s).line = s.line := rfl
@[simp] theorem hold_wait (w : HostWait) (s : State) : (State.hold w s).wait = some w := rfl
@[simp] theorem hold_tx (w : HostWait) (s : State) : (State.hold w s).tx = s.tx := rfl
@[simp] theorem hold_buf (w : HostWait) (s : State) : (State.hold w s).buf = s.buf := rfl
@[simp] theorem hold_wave (w : HostWait) (s : State) : (State.hold w s).wave = s.wave := rfl
@[simp] theorem hold_inbox (w : HostWait) (s : State) : (State.hold w s).inbox = s.inbox := rfl
@[simp] theorem hold_turns (w : HostWait) (s : State) : (State.hold w s).turns = s.turns := rfl
@[simp] theorem hold_fails (w : HostWait) (s : State) : (State.hold w s).fails = s.fails := rfl
@[simp] theorem hold_dummies (w : HostWait) (s : State) : (State.hold w s).dummies = s.dummies := rfl
@[simp] theorem hold_seq (w : HostWait) (s : State) : (State.hold w s).seq = s.seq := rfl

/-! ### Starting a packet -/

@[simp] theorem startPacket_pin (p : Payload) (s : State) : (State.startPacket p s).pin = s.pin := rfl
@[simp] theorem startPacket_tb (p : Payload) (s : State) : (State.startPacket p s).tb = s.tb := rfl
@[simp] theorem startPacket_profile (p : Payload) (s : State) : (State.startPacket p s).profile = s.profile := rfl
@[simp] theorem startPacket_impl (p : Payload) (s : State) : (State.startPacket p s).impl = s.impl := rfl
@[simp] theorem startPacket_blk (p : Payload) (s : State) : (State.startPacket p s).blk = s.blk := rfl
@[simp] theorem startPacket_fault (p : Payload) (s : State) : (State.startPacket p s).fault = s.fault := rfl
@[simp] theorem startPacket_dst (p : Payload) (s : State) : (State.startPacket p s).dst = s.dst := rfl
@[simp] theorem startPacket_resp (p : Payload) (s : State) : (State.startPacket p s).resp = s.resp := rfl
@[simp] theorem startPacket_flags (p : Payload) (s : State) : (State.startPacket p s).flags = s.flags := rfl
@[simp] theorem startPacket_begun (p : Payload) (s : State) : (State.startPacket p s).begun = s.begun := rfl
@[simp] theorem startPacket_inFlight (p : Payload) (s : State) : (State.startPacket p s).inFlight = true := rfl
@[simp] theorem startPacket_idleLevel (p : Payload) (s : State) : (State.startPacket p s).idleLevel = s.idleLevel := rfl
@[simp] theorem startPacket_line (p : Payload) (s : State) : (State.startPacket p s).line = s.line := rfl
@[simp] theorem startPacket_wait (p : Payload) (s : State) : (State.startPacket p s).wait = none := rfl
@[simp] theorem startPacket_tx (p : Payload) (s : State) : (State.startPacket p s).tx = some ⟨.packet p, .stepping, s.idleLevel⟩ := rfl
@[simp] theorem startPacket_buf (p : Payload) (s : State) : (State.startPacket p s).buf = s.buf := rfl
@[simp] theorem startPacket_wave (p : Payload) (s : State) : (State.startPacket p s).wave = s.wave := rfl
@[simp] theorem startPacket_inbox (p : Payload) (s : State) : (State.startPacket p s).inbox = s.inbox := rfl
@[simp] theorem startPacket_turns (p : Payload) (s : State) : (State.startPacket p s).turns = s.turns := rfl
@[simp] theorem startPacket_fails (p : Payload) (s : State) : (State.startPacket p s).fails = s.fails := rfl
@[simp] theorem startPacket_dummies (p : Payload) (s : State) : (State.startPacket p s).dummies = s.dummies := rfl
@[simp] theorem startPacket_seq (p : Payload) (s : State) : (State.startPacket p s).seq = s.seq := rfl

/-! ### Starting the dummy transmission -/

@[simp] theorem startDummy_pin (s : State) : (State.startDummy s).pin = s.pin := rfl
@[simp] theorem startDummy_tb (s : State) : (State.startDummy s).tb = s.tb := rfl
@[simp] theorem startDummy_profile (s : State) : (State.startDummy s).profile = s.profile := rfl
@[simp] theorem startDummy_impl (s : State) : (State.startDummy s).impl = s.impl := rfl
@[simp] theorem startDummy_blk (s : State) : (State.startDummy s).blk = s.blk := rfl
@[simp] theorem startDummy_fault (s : State) : (State.startDummy s).fault = s.fault := rfl
@[simp] theorem startDummy_dst (s : State) : (State.startDummy s).dst = s.dst := rfl
@[simp] theorem startDummy_resp (s : State) : (State.startDummy s).resp = s.resp := rfl
@[simp] theorem startDummy_flags (s : State) : (State.startDummy s).flags = s.flags := rfl
@[simp] theorem startDummy_begun (s : State) : (State.startDummy s).begun = s.begun := rfl
@[simp] theorem startDummy_inFlight (s : State) : (State.startDummy s).inFlight = s.inFlight := rfl
@[simp] theorem startDummy_idleLevel (s : State) : (State.startDummy s).idleLevel = .low := rfl
@[simp] theorem startDummy_line (s : State) : (State.startDummy s).line = s.line := rfl
@[simp] theorem startDummy_wait (s : State) : (State.startDummy s).wait = some .dummyDone := rfl
@[simp] theorem startDummy_tx (s : State) : (State.startDummy s).tx = some ⟨.dummy, .draining, .low⟩ := rfl
@[simp] theorem startDummy_buf (s : State) : (State.startDummy s).buf = s.buf ++ waveOf s.nextDummy := rfl
@[simp] theorem startDummy_wave (s : State) : (State.startDummy s).wave = s.wave := rfl
@[simp] theorem startDummy_inbox (s : State) : (State.startDummy s).inbox = s.inbox := rfl
@[simp] theorem startDummy_turns (s : State) : (State.startDummy s).turns = s.turns := rfl
@[simp] theorem startDummy_fails (s : State) : (State.startDummy s).fails = s.fails := rfl
@[simp] theorem startDummy_dummies (s : State) : (State.startDummy s).dummies = s.dummies.tail := rfl
@[simp] theorem startDummy_seq (s : State) : (State.startDummy s).seq = if s.dummies = [] then s.seq + 1 else s.seq := rfl

/-! ### Enabling the output -/

@[simp] theorem enabled_pin (s : State) : (State.enabled s).pin = s.pin := rfl
@[simp] theorem enabled_tb (s : State) : (State.enabled s).tb = s.tb := rfl
@[simp] theorem enabled_profile (s : State) : (State.enabled s).profile = s.profile := rfl
@[simp] theorem enabled_impl (s : State) : (State.enabled s).impl = s.impl := rfl
@[simp] theorem enabled_blk (s : State) : (State.enabled s).blk = s.blk := rfl
@[simp] theorem enabled_fault (s : State) : (State.enabled s).fault = s.fault := rfl
@[simp] theorem enabled_dst (s : State) : (State.enabled s).dst = s.dst := rfl
@[simp] theorem enabled_resp (s : State) : (State.enabled s).resp = s.resp := rfl
@[simp] theorem enabled_flags (s : State) : (State.enabled s).flags = s.flags := rfl
@[simp] theorem enabled_begun (s : State) : (State.enabled s).begun = true := rfl
@[simp] theorem enabled_inFlight (s : State) : (State.enabled s).inFlight = s.inFlight := rfl
@[simp] theorem enabled_idleLevel (s : State) : (State.enabled s).idleLevel = .high := rfl
@[simp] theorem enabled_line (s : State) : (State.enabled s).line = s.line := rfl
@[simp] theorem enabled_wait (s : State) : (State.enabled s).wait = s.wait := rfl
@[simp] theorem enabled_tx (s : State) : (State.enabled s).tx = s.tx := rfl
@[simp] theorem enabled_buf (s : State) : (State.enabled s).buf = s.buf := rfl
@[simp] theorem enabled_wave (s : State) : (State.enabled s).wave = s.wave := rfl
@[simp] theorem enabled_inbox (s : State) : (State.enabled s).inbox = s.inbox := rfl
@[simp] theorem enabled_turns (s : State) : (State.enabled s).turns = s.turns := rfl
@[simp] theorem enabled_fails (s : State) : (State.enabled s).fails = s.fails := rfl
@[simp] theorem enabled_dummies (s : State) : (State.enabled s).dummies = s.dummies := rfl
@[simp] theorem enabled_seq (s : State) : (State.enabled s).seq = s.seq := rfl

/-! ### Disabling the output -/

@[simp] theorem disabled_pin (s : State) : (State.disabled s).pin = s.pin := rfl
@[simp] theorem disabled_tb (s : State) : (State.disabled s).tb = s.tb := rfl
@[simp] theorem disabled_profile (s : State) : (State.disabled s).profile = s.profile := rfl
@[simp] theorem disabled_impl (s : State) : (State.disabled s).impl = s.impl := rfl
@[simp] theorem disabled_blk (s : State) : (State.disabled s).blk = s.blk := rfl
@[simp] theorem disabled_fault (s : State) : (State.disabled s).fault = s.fault := rfl
@[simp] theorem disabled_dst (s : State) : (State.disabled s).dst = s.dst := rfl
@[simp] theorem disabled_resp (s : State) : (State.disabled s).resp = s.resp := rfl
@[simp] theorem disabled_flags (s : State) : (State.disabled s).flags = s.flags := rfl
@[simp] theorem disabled_begun (s : State) : (State.disabled s).begun = false := rfl
@[simp] theorem disabled_inFlight (s : State) : (State.disabled s).inFlight = s.inFlight := rfl
@[simp] theorem disabled_idleLevel (s : State) : (State.disabled s).idleLevel = s.idleLevel := rfl
@[simp] theorem disabled_line (s : State) : (State.disabled s).line = s.line := rfl
@[simp] theorem disabled_wait (s : State) : (State.disabled s).wait = none := rfl
@[simp] theorem disabled_tx (s : State) : (State.disabled s).tx = s.tx := rfl
@[simp] theorem disabled_buf (s : State) : (State.disabled s).buf = s.buf := rfl
@[simp] theorem disabled_wave (s : State) : (State.disabled s).wave = s.wave := rfl
@[simp] theorem disabled_inbox (s : State) : (State.disabled s).inbox = s.inbox := rfl
@[simp] theorem disabled_turns (s : State) : (State.disabled s).turns = s.turns := rfl
@[simp] theorem disabled_fails (s : State) : (State.disabled s).fails = s.fails := rfl
@[simp] theorem disabled_dummies (s : State) : (State.disabled s).dummies = s.dummies := rfl
@[simp] theorem disabled_seq (s : State) : (State.disabled s).seq = s.seq := rfl

/-! ### Writing FLAGS -/

@[simp] theorem putFlags_pin (f : Byte) (s : State) : (State.putFlags f s).pin = s.pin := rfl
@[simp] theorem putFlags_tb (f : Byte) (s : State) : (State.putFlags f s).tb = s.tb := rfl
@[simp] theorem putFlags_profile (f : Byte) (s : State) : (State.putFlags f s).profile = s.profile := rfl
@[simp] theorem putFlags_impl (f : Byte) (s : State) : (State.putFlags f s).impl = s.impl := rfl
@[simp] theorem putFlags_blk (f : Byte) (s : State) : (State.putFlags f s).blk = s.blk := rfl
@[simp] theorem putFlags_fault (f : Byte) (s : State) : (State.putFlags f s).fault = s.fault := rfl
@[simp] theorem putFlags_dst (f : Byte) (s : State) : (State.putFlags f s).dst = s.dst := rfl
@[simp] theorem putFlags_resp (f : Byte) (s : State) : (State.putFlags f s).resp = s.resp := rfl
@[simp] theorem putFlags_flags (f : Byte) (s : State) : (State.putFlags f s).flags = flagField f := rfl
@[simp] theorem putFlags_begun (f : Byte) (s : State) : (State.putFlags f s).begun = s.begun := rfl
@[simp] theorem putFlags_inFlight (f : Byte) (s : State) : (State.putFlags f s).inFlight = s.inFlight := rfl
@[simp] theorem putFlags_idleLevel (f : Byte) (s : State) : (State.putFlags f s).idleLevel = s.idleLevel := rfl
@[simp] theorem putFlags_line (f : Byte) (s : State) : (State.putFlags f s).line = s.line := rfl
@[simp] theorem putFlags_wait (f : Byte) (s : State) : (State.putFlags f s).wait = s.wait := rfl
@[simp] theorem putFlags_tx (f : Byte) (s : State) : (State.putFlags f s).tx = s.tx := rfl
@[simp] theorem putFlags_buf (f : Byte) (s : State) : (State.putFlags f s).buf = s.buf := rfl
@[simp] theorem putFlags_wave (f : Byte) (s : State) : (State.putFlags f s).wave = s.wave := rfl
@[simp] theorem putFlags_inbox (f : Byte) (s : State) : (State.putFlags f s).inbox = s.inbox := rfl
@[simp] theorem putFlags_turns (f : Byte) (s : State) : (State.putFlags f s).turns = s.turns := rfl
@[simp] theorem putFlags_fails (f : Byte) (s : State) : (State.putFlags f s).fails = s.fails := rfl
@[simp] theorem putFlags_dummies (f : Byte) (s : State) : (State.putFlags f s).dummies = s.dummies := rfl
@[simp] theorem putFlags_seq (f : Byte) (s : State) : (State.putFlags f s).seq = s.seq := rfl

/-! ### RESET -/

@[simp] theorem resetBlock_pin (s : State) : (State.resetBlock s).pin = s.pin := rfl
@[simp] theorem resetBlock_tb (s : State) : (State.resetBlock s).tb = s.tb := rfl
@[simp] theorem resetBlock_profile (s : State) : (State.resetBlock s).profile = s.profile := rfl
@[simp] theorem resetBlock_impl (s : State) : (State.resetBlock s).impl = s.impl := rfl
@[simp] theorem resetBlock_blk (s : State) : (State.resetBlock s).blk = Block.initial := rfl
@[simp] theorem resetBlock_fault (s : State) : (State.resetBlock s).fault = s.fault := rfl
@[simp] theorem resetBlock_dst (s : State) : (State.resetBlock s).dst = s.dst := rfl
@[simp] theorem resetBlock_resp (s : State) : (State.resetBlock s).resp = s.resp := rfl
@[simp] theorem resetBlock_flags (s : State) : (State.resetBlock s).flags = s.flags := rfl
@[simp] theorem resetBlock_begun (s : State) : (State.resetBlock s).begun = s.begun := rfl
@[simp] theorem resetBlock_inFlight (s : State) : (State.resetBlock s).inFlight = s.inFlight := rfl
@[simp] theorem resetBlock_idleLevel (s : State) : (State.resetBlock s).idleLevel = s.idleLevel := rfl
@[simp] theorem resetBlock_line (s : State) : (State.resetBlock s).line = s.line := rfl
@[simp] theorem resetBlock_wait (s : State) : (State.resetBlock s).wait = s.wait := rfl
@[simp] theorem resetBlock_tx (s : State) : (State.resetBlock s).tx = s.tx := rfl
@[simp] theorem resetBlock_buf (s : State) : (State.resetBlock s).buf = s.buf := rfl
@[simp] theorem resetBlock_wave (s : State) : (State.resetBlock s).wave = s.wave := rfl
@[simp] theorem resetBlock_inbox (s : State) : (State.resetBlock s).inbox = s.inbox := rfl
@[simp] theorem resetBlock_turns (s : State) : (State.resetBlock s).turns = s.turns := rfl
@[simp] theorem resetBlock_fails (s : State) : (State.resetBlock s).fails = s.fails := rfl
@[simp] theorem resetBlock_dummies (s : State) : (State.resetBlock s).dummies = s.dummies := rfl
@[simp] theorem resetBlock_seq (s : State) : (State.resetBlock s).seq = s.seq := rfl

/-! ### A STEP's results -/

@[simp] theorem commit_pin (blk : Block) (out : List Symbol) (st : Status) (s : State) : (State.commit blk out st s).pin = s.pin := rfl
@[simp] theorem commit_tb (blk : Block) (out : List Symbol) (st : Status) (s : State) : (State.commit blk out st s).tb = s.tb := rfl
@[simp] theorem commit_profile (blk : Block) (out : List Symbol) (st : Status) (s : State) : (State.commit blk out st s).profile = s.profile := rfl
@[simp] theorem commit_impl (blk : Block) (out : List Symbol) (st : Status) (s : State) : (State.commit blk out st s).impl = s.impl := rfl
@[simp] theorem commit_blk (blk : Block) (out : List Symbol) (st : Status) (s : State) : (State.commit blk out st s).blk = blk := rfl
@[simp] theorem commit_fault (blk : Block) (out : List Symbol) (st : Status) (s : State) : (State.commit blk out st s).fault = s.fault := rfl
@[simp] theorem commit_dst (blk : Block) (out : List Symbol) (st : Status) (s : State) : (State.commit blk out st s).dst = out := rfl
@[simp] theorem commit_resp (blk : Block) (out : List Symbol) (st : Status) (s : State) : (State.commit blk out st s).resp = some ⟨out.length, st⟩ := rfl
@[simp] theorem commit_flags (blk : Block) (out : List Symbol) (st : Status) (s : State) : (State.commit blk out st s).flags = s.flags := rfl
@[simp] theorem commit_begun (blk : Block) (out : List Symbol) (st : Status) (s : State) : (State.commit blk out st s).begun = s.begun := rfl
@[simp] theorem commit_inFlight (blk : Block) (out : List Symbol) (st : Status) (s : State) : (State.commit blk out st s).inFlight = s.inFlight := rfl
@[simp] theorem commit_idleLevel (blk : Block) (out : List Symbol) (st : Status) (s : State) : (State.commit blk out st s).idleLevel = s.idleLevel := rfl
@[simp] theorem commit_line (blk : Block) (out : List Symbol) (st : Status) (s : State) : (State.commit blk out st s).line = s.line := rfl
@[simp] theorem commit_wait (blk : Block) (out : List Symbol) (st : Status) (s : State) : (State.commit blk out st s).wait = s.wait := rfl
@[simp] theorem commit_tx (blk : Block) (out : List Symbol) (st : Status) (s : State) : (State.commit blk out st s).tx = s.tx := rfl
@[simp] theorem commit_buf (blk : Block) (out : List Symbol) (st : Status) (s : State) : (State.commit blk out st s).buf = s.buf ++ waveOf out := rfl
@[simp] theorem commit_wave (blk : Block) (out : List Symbol) (st : Status) (s : State) : (State.commit blk out st s).wave = s.wave := rfl
@[simp] theorem commit_inbox (blk : Block) (out : List Symbol) (st : Status) (s : State) : (State.commit blk out st s).inbox = s.inbox := rfl
@[simp] theorem commit_turns (blk : Block) (out : List Symbol) (st : Status) (s : State) : (State.commit blk out st s).turns = s.turns := rfl
@[simp] theorem commit_fails (blk : Block) (out : List Symbol) (st : Status) (s : State) : (State.commit blk out st s).fails = s.fails := rfl
@[simp] theorem commit_dummies (blk : Block) (out : List Symbol) (st : Status) (s : State) : (State.commit blk out st s).dummies = s.dummies := rfl
@[simp] theorem commit_seq (blk : Block) (out : List Symbol) (st : Status) (s : State) : (State.commit blk out st s).seq = s.seq := rfl

/-! ### A transmission's phase -/

@[simp] theorem putPhase_pin (phase : TxPhase) (s : State) : (State.putPhase phase s).pin = s.pin := rfl
@[simp] theorem putPhase_tb (phase : TxPhase) (s : State) : (State.putPhase phase s).tb = s.tb := rfl
@[simp] theorem putPhase_profile (phase : TxPhase) (s : State) : (State.putPhase phase s).profile = s.profile := rfl
@[simp] theorem putPhase_impl (phase : TxPhase) (s : State) : (State.putPhase phase s).impl = s.impl := rfl
@[simp] theorem putPhase_blk (phase : TxPhase) (s : State) : (State.putPhase phase s).blk = s.blk := rfl
@[simp] theorem putPhase_fault (phase : TxPhase) (s : State) : (State.putPhase phase s).fault = s.fault := rfl
@[simp] theorem putPhase_dst (phase : TxPhase) (s : State) : (State.putPhase phase s).dst = s.dst := rfl
@[simp] theorem putPhase_resp (phase : TxPhase) (s : State) : (State.putPhase phase s).resp = s.resp := rfl
@[simp] theorem putPhase_flags (phase : TxPhase) (s : State) : (State.putPhase phase s).flags = s.flags := rfl
@[simp] theorem putPhase_begun (phase : TxPhase) (s : State) : (State.putPhase phase s).begun = s.begun := rfl
@[simp] theorem putPhase_inFlight (phase : TxPhase) (s : State) : (State.putPhase phase s).inFlight = s.inFlight := rfl
@[simp] theorem putPhase_idleLevel (phase : TxPhase) (s : State) : (State.putPhase phase s).idleLevel = s.idleLevel := rfl
@[simp] theorem putPhase_line (phase : TxPhase) (s : State) : (State.putPhase phase s).line = s.line := rfl
@[simp] theorem putPhase_wait (phase : TxPhase) (s : State) : (State.putPhase phase s).wait = s.wait := rfl
@[simp] theorem putPhase_tx (phase : TxPhase) (s : State) : (State.putPhase phase s).tx = s.tx.map fun t => { t with phase := phase } := rfl
@[simp] theorem putPhase_buf (phase : TxPhase) (s : State) : (State.putPhase phase s).buf = s.buf := rfl
@[simp] theorem putPhase_wave (phase : TxPhase) (s : State) : (State.putPhase phase s).wave = s.wave := rfl
@[simp] theorem putPhase_inbox (phase : TxPhase) (s : State) : (State.putPhase phase s).inbox = s.inbox := rfl
@[simp] theorem putPhase_turns (phase : TxPhase) (s : State) : (State.putPhase phase s).turns = s.turns := rfl
@[simp] theorem putPhase_fails (phase : TxPhase) (s : State) : (State.putPhase phase s).fails = s.fails := rfl
@[simp] theorem putPhase_dummies (phase : TxPhase) (s : State) : (State.putPhase phase s).dummies = s.dummies := rfl
@[simp] theorem putPhase_seq (phase : TxPhase) (s : State) : (State.putPhase phase s).seq = s.seq := rfl

/-! ### A fresh machine -/

@[simp] theorem fresh_pin (pin : BitVec 32) (tb : Byte) (s : State) : (State.fresh pin tb s).pin = pin := rfl
@[simp] theorem fresh_tb (pin : BitVec 32) (tb : Byte) (s : State) : (State.fresh pin tb s).tb = tb := rfl
@[simp] theorem fresh_profile (pin : BitVec 32) (tb : Byte) (s : State) : (State.fresh pin tb s).profile = profileOf tb s.impl.ratios := rfl
@[simp] theorem fresh_impl (pin : BitVec 32) (tb : Byte) (s : State) : (State.fresh pin tb s).impl = s.impl := rfl
@[simp] theorem fresh_blk (pin : BitVec 32) (tb : Byte) (s : State) : (State.fresh pin tb s).blk = Block.initial := rfl
@[simp] theorem fresh_fault (pin : BitVec 32) (tb : Byte) (s : State) : (State.fresh pin tb s).fault = .none := rfl
@[simp] theorem fresh_dst (pin : BitVec 32) (tb : Byte) (s : State) : (State.fresh pin tb s).dst = [] := rfl
@[simp] theorem fresh_resp (pin : BitVec 32) (tb : Byte) (s : State) : (State.fresh pin tb s).resp = none := rfl
@[simp] theorem fresh_flags (pin : BitVec 32) (tb : Byte) (s : State) : (State.fresh pin tb s).flags = 0 := rfl
@[simp] theorem fresh_begun (pin : BitVec 32) (tb : Byte) (s : State) : (State.fresh pin tb s).begun = false := rfl
@[simp] theorem fresh_inFlight (pin : BitVec 32) (tb : Byte) (s : State) : (State.fresh pin tb s).inFlight = false := rfl
@[simp] theorem fresh_idleLevel (pin : BitVec 32) (tb : Byte) (s : State) : (State.fresh pin tb s).idleLevel = Config.freeLevel s.seq := rfl
@[simp] theorem fresh_line (pin : BitVec 32) (tb : Byte) (s : State) : (State.fresh pin tb s).line = Config.freeLevel (s.seq + 1) := rfl
@[simp] theorem fresh_wait (pin : BitVec 32) (tb : Byte) (s : State) : (State.fresh pin tb s).wait = none := rfl
@[simp] theorem fresh_tx (pin : BitVec 32) (tb : Byte) (s : State) : (State.fresh pin tb s).tx = none := rfl
@[simp] theorem fresh_buf (pin : BitVec 32) (tb : Byte) (s : State) : (State.fresh pin tb s).buf = [] := rfl
@[simp] theorem fresh_wave (pin : BitVec 32) (tb : Byte) (s : State) : (State.fresh pin tb s).wave = [] := rfl
@[simp] theorem fresh_inbox (pin : BitVec 32) (tb : Byte) (s : State) : (State.fresh pin tb s).inbox = s.inbox := rfl
@[simp] theorem fresh_turns (pin : BitVec 32) (tb : Byte) (s : State) : (State.fresh pin tb s).turns = s.turns := rfl
@[simp] theorem fresh_fails (pin : BitVec 32) (tb : Byte) (s : State) : (State.fresh pin tb s).fails = s.fails := rfl
@[simp] theorem fresh_dummies (pin : BitVec 32) (tb : Byte) (s : State) : (State.fresh pin tb s).dummies = s.dummies := rfl
@[simp] theorem fresh_seq (pin : BitVec 32) (tb : Byte) (s : State) : (State.fresh pin tb s).seq = s.seq + 2 := rfl

end Sys2Proof.Machine
end

