-- ==== Sys2Proof/Laws/Ops.lean ====
section
/-! SUPPORT. What the shared operations can do, said once: the guard, the environment's choices, sendRaw, the host's
wait, and the shape of a step. -/

namespace Sys2Proof.Machine

/-! ### The guard -/

@[simp] theorem guarded_of_no_fault {s : State} (h : s.fault = .none) (r : Result) : guarded s r = r := by
  simp [guarded, h]

@[simp] theorem guarded_of_fault {s : State} (h : ¬ s.fault = .none) (r : Result) :
    guarded s r = .fault (.stuck s.fault) := by
  simp [guarded, h]

/-- A guarded transition that answers a next state started without a fault. -/
theorem guarded_eq_next {s t : State} {r : Result} :
    guarded s r = .next t ↔ s.fault = .none ∧ r = .next t := by
  by_cases h : s.fault = .none <;> simp [guarded, h]

/-! ### The environment's choices -/

@[simp] theorem nextTurn_of_cons {s : State} {t : Turn} {ts : List Turn} (h : s.turns = t :: ts) :
    s.nextTurn = t := by
  simp [State.nextTurn, h]

@[simp] theorem nextFail_of_cons {s : State} {b : Bool} {bs : List Bool} (h : s.fails = b :: bs) :
    s.nextFail = b := by
  simp [State.nextFail, h]

@[simp] theorem nextDummy_of_cons {s : State} {x : List Symbol} {xs : List (List Symbol)} (h : s.dummies = x :: xs) :
    s.nextDummy = x := by
  simp [State.nextDummy, h]

/-! ### sendRaw and the wait -/

/-- sendRaw ignores the call, holds it, or starts the packet. -/
theorem send_cases (payload : Option Payload) (s : State) :
    s.send payload = s ∨
      (∃ p, payload = some p ∧ p ≠ [] ∧ s.begun = true ∧
        ((s.inFlight = true ∧ s.send payload = s.hold (.sendRaw p)) ∨
          (s.inFlight = false ∧ s.send payload = s.startPacket p))) := by
  unfold State.send
  by_cases hb : s.begun = false
  · simp [hb]
  · rcases payload with _ | p
    · simp [hb]
    · by_cases hp : p = []
      · simp [hb, hp]
      · right
        refine ⟨p, rfl, hp, by simpa using hb, ?_⟩
        by_cases hf : s.inFlight = true <;> simp [hb, hp, hf]

/-- sendRaw's start of a packet. -/
theorem send_of_ready {s : State} {p : Payload} (hb : s.begun = true) (hf : s.inFlight = false) (hp : p ≠ []) :
    s.send (some p) = s.startPacket p := by
  simp [State.send, hb, hf, hp]

/-- A turn of the host in a held call. -/
theorem resume_cases (w : HostWait) (s : State) :
    s.resume w = s ∨
      (∃ p, w = .sendRaw p ∧ s.inFlight = false ∧ s.resume w = s.startPacket p) ∨
      (w = .dummyDone ∧ s.tx = none ∧
        ((s.nextFail = true ∧ s.resume w = s.afterFail.raise .hwFail) ∨
          (s.nextFail = false ∧ s.resume w = s.afterFail.disabled))) := by
  cases w with
  | sendRaw p => by_cases hf : s.inFlight = true <;> simp [State.resume, hf]
  | dummyDone =>
    by_cases ht : s.tx = none
    · by_cases hn : s.nextFail = true <;> simp [State.resume, ht, hn]
    · simp [State.resume, ht]

/-! ### The other calls -/

/-- begin ignores the call, fails, or enables the output. -/
theorem beginCall_cases (s : State) :
    s.beginCall = s ∨ (s.begun = false ∧ s.nextFail = true ∧ s.beginCall = s.afterFail.raise .hwFail) ∨
      (s.begun = false ∧ s.nextFail = false ∧ s.beginCall = s.afterFail.enabled) := by
  by_cases hb : s.begun = true
  · simp [State.beginCall, hb]
  · by_cases hn : s.nextFail = true <;> simp [State.beginCall, hb, hn]

/-- end ignores the call, is refused, or starts the dummy transmission. -/
theorem endCall_cases (s : State) :
    s.endCall = s ∨ (s.begun = true ∧ s.inFlight = true ∧ s.endCall = s.raise .endInFlight) ∨
      (s.begun = true ∧ s.inFlight = false ∧ s.endCall = s.startDummy) := by
  by_cases hb : s.begun = true
  · by_cases hf : s.inFlight = true <;> simp [State.endCall, hb, hf]
  · simp [State.endCall, hb]

/-- construct refuses its timebase, fails to allocate, or gives a fresh machine. -/
theorem constructCall_cases (pin : BitVec 32) (tb : Byte) (s : State) :
    (configOk tb s.impl.ratios = false ∧ s.constructCall pin tb = s.raise .configInvalid) ∨
      (configOk tb s.impl.ratios = true ∧ s.nextFail = true ∧ s.constructCall pin tb = s.afterFail.raise .allocFail) ∨
      (configOk tb s.impl.ratios = true ∧ s.nextFail = false ∧
        s.constructCall pin tb = s.afterFail.fresh pin tb) := by
  by_cases hc : configOk tb s.impl.ratios = true
  · by_cases hn : s.nextFail = true <;> simp [State.constructCall, hc, hn]
  · simp [State.constructCall, hc]

/-! ### The engine's moves -/

/-- The capacity the engine offers is within MAX_BATCH, so it fits cap's bus field (spec/30_encoding.md R78). -/
theorem offer_fits (cap : Nat) (s : State) : fitsCapField s.impl.maxBatch (s.offer cap) = true :=
  fitsCapField_of_le (Nat.min_le_right _ _)

/-- After its STEP the engine is done with the packet exactly on Complete. -/
theorem afterInvoke_cases (s : State) :
    s.afterInvoke = s ∨
      (s.fault = .none ∧ s.resp.map Response.status = some .complete ∧ s.afterInvoke = s.putPhase .draining) := by
  unfold State.afterInvoke
  split
  · next h => exact .inr ⟨h.2, h.1, rfl⟩
  · exact .inl rfl

/-- A segment is sent where one is waiting. -/
theorem sendSegment_cases (s : State) :
    s.sendSegment = s ∨ ∃ seg rest, s.buf = seg :: rest ∧
      s.sendSegment = { s with line := seg.level, wave := s.wave ++ [seg], buf := rest } := by
  unfold State.sendSegment
  split
  · exact .inl rfl
  · next seg rest h => exact .inr ⟨seg, rest, h, rfl⟩

/-- The line settles where a transmission has nothing left to send. -/
theorem settle_cases (s : State) :
    s.settle = s ∨ ∃ source idle, s.tx = some ⟨source, .draining, idle⟩ ∧ s.buf = [] ∧
      s.settle = { s with line := idle, tx := some ⟨source, .idled, idle⟩ } := by
  unfold State.settle
  split
  · next source idle h =>
    split
    · next hb => exact .inr ⟨source, idle, h, hb, rfl⟩
    · exact .inl rfl
  · exact .inl rfl

/-- The done event ends the flight of a packet, or the dummy transmission. -/
theorem doneEvent_cases (s : State) :
    s.doneEvent = s ∨
      (∃ p idle, s.tx = some ⟨.packet p, .idled, idle⟩ ∧ s.doneEvent = { s with inFlight := false, tx := none }) ∨
      (∃ idle, s.tx = some ⟨.dummy, .idled, idle⟩ ∧ s.doneEvent = { s with tx := none }) := by
  unfold State.doneEvent
  split
  · next p idle h => exact .inr (.inl ⟨p, idle, h, rfl⟩)
  · next idle h => exact .inr (.inr ⟨idle, h, rfl⟩)
  · exact .inl rfl

/-- A transmission fails where there is one. -/
theorem txFail_cases (s : State) : s.txFail = s ∨ (s.tx ≠ none ∧ s.txFail = s.raise .hwFail) := by
  by_cases h : s.tx = none <;> simp [State.txFail, h]

/-- The move that puts a segment on the line keeps the order of what was written. -/
theorem sendSegment_keeps_order (s : State) : s.sendSegment.wave ++ s.sendSegment.buf = s.wave ++ s.buf := by
  unfold State.sendSegment
  split
  · rfl
  · next h => simp [h]

/-- The engine's STEP either is not due, or is one STEP request with its packet's payload. -/
theorem engineInvoke_cases (cap : Nat) (s : State) :
    (engineInvoke cap s = .next s ∧ ∀ p idle, s.tx ≠ some ⟨.packet p, .stepping, idle⟩) ∨
      ∃ p idle, s.tx = some ⟨.packet p, .stepping, idle⟩ ∧
        engineInvoke cap s =
          (match stepRequest (s.offer cap) p s with
            | .next t => .next t.afterInvoke
            | .fault r => .fault r
            | .refused r => .refused r) := by
  unfold engineInvoke
  split
  · next p idle h => exact .inr ⟨p, idle, h, rfl⟩
  · next h => exact .inl ⟨rfl, fun p idle hc => h p idle hc⟩

/-! ### The step -/

/-- The host's turn, in no call, runs the request it reads. -/
theorem hostTurn_of_decode {s : State} {i : Instr} {rest : List Byte} (hw : s.wait = none)
    (hd : decode s.inbox = .ok (i, rest)) : hostTurn s = exec i (s.consume rest) := by
  have hne : s.inbox ≠ [] := by
    intro h
    simp [h, decode] at hd
  unfold hostTurn nextRequest
  cases hb : s.inbox with
  | nil => exact absurd hb hne
  | cons b bs => simp [hw, ← hb, hd]

end Sys2Proof.Machine
end

