-- ==== Sys2Proof/Laws/Encoder.lean ====
section
/-! SUPPORT. What the two capabilities and the three stages of STEP_body do, said once for each, and the small facts about a
payload's bits and a packet's sequence that they rest on. -/

namespace Sys2Proof.Machine

/-! ### Bits and the packet's sequence -/

@[simp] theorem payloadBits_length (p : Payload) (start n : Nat) : (payloadBits p start n).length = n := by
  simp [payloadBits]

@[simp] theorem payloadBits_zero (p : Payload) (start : Nat) : payloadBits p start 0 = [] := rfl

/-- A run of bits splits where one call ends and the next begins. -/
theorem payloadBits_add (p : Payload) (start n m : Nat) :
    payloadBits p start (n + m) = payloadBits p start n ++ payloadBits p (start + n) m := by
  simp [payloadBits, List.range_add, Function.comp_def, Nat.add_assoc]

@[simp] theorem allBits_length (p : Payload) : (allBits p).length = 8 * p.length := by
  simp [allBits]

/-- The bits of the packet's sequence, from position `1 + bk`. -/
theorem packetSeq_data (prof : Profile) (p : Payload) (bk w : Nat) (h : bk + w ≤ 8 * p.length) :
    ((packetSeq prof p).drop (1 + bk)).take w = (payloadBits p bk w).map prof.bitSym := by
  obtain ⟨m, hm⟩ : ∃ m, 8 * p.length = bk + w + m := ⟨8 * p.length - bk - w, by omega⟩
  rw [packetSeq, Nat.add_comm, List.drop_succ_cons, allBits, hm, payloadBits_add, payloadBits_add]
  simp only [List.map_append, List.append_assoc, Nat.zero_add]
  rw [List.drop_append_of_le_length (by simp), List.drop_of_length_le (by simp), List.nil_append,
    List.take_append_of_le_length (by simp), List.take_of_length_le (by simp)]

/-- The last symbol of the packet's sequence. -/
theorem packetSeq_end (prof : Profile) (p : Payload) :
    (packetSeq prof p).drop (1 + 8 * p.length) = [prof.endSym] := by
  rw [packetSeq, Nat.add_comm, List.drop_succ_cons, List.drop_append_of_le_length (by simp)]
  simp

/-! ### What goes on the line -/

@[simp] theorem waveOf_nil : waveOf [] = [] := rfl

theorem waveOf_cons (x : Symbol) (xs : List Symbol) : waveOf (x :: xs) = segmentsOf x ++ waveOf xs := by
  simp [waveOf]

theorem waveOf_append (xs ys : List Symbol) : waveOf (xs ++ ys) = waveOf xs ++ waveOf ys := by
  simp [waveOf]

theorem lineTicks_append (a b : List Segment) : lineTicks (a ++ b) = lineTicks a + lineTicks b := by
  induction a with
  | nil => simp [lineTicks]
  | cons x a ih => simp [lineTicks, ih, Nat.add_assoc]

/-! ### The capabilities -/

/-- A capability never writes past the space offered. -/
theorem burst_le_free (len progress free : Nat) : burst len progress free ≤ free := by
  unfold burst
  omega

@[simp] theorem bitEncode_length (prof : Profile) (p : Payload) (bk free : Nat) :
    (bitEncode prof p bk free).written.length = burst (8 * p.length) bk free := by
  simp [bitEncode]

/-- Copying a one-symbol literal with no slot (spec/42_symbol_emitter.md R142). -/
theorem emitLiteral_no_slot (x : Symbol) : emitLiteral [x] 0 0 = ⟨[], 0, false, true⟩ := rfl

/-- Copying a one-symbol literal with a slot (spec/42_symbol_emitter.md R142). -/
theorem emitLiteral_slot (x : Symbol) (free : Nat) :
    emitLiteral [x] 0 (free + 1) = ⟨[x], 0, true, decide (free = 0)⟩ := by
  simp [emitLiteral, burst, reportDone, reportFull, progressAfter]

/-! ### The stages -/

/-- The Ending stage, from a block whose emitter is at its start. -/
theorem endingStage_eq (prof : Profile) (b : Block) (out : List Symbol) (free : Nat) (hse : b.se = 0) :
    endingStage prof b out free =
      if free = 0 then ⟨b, out, some .paused⟩
      else ⟨{ b with st := .leading, pkt := none }, out ++ [prof.endSym], some .complete⟩ := by
  obtain ⟨st, bk, se, pkt⟩ := b
  subst hse
  cases free with
  | zero => simp [endingStage, emitLiteral_no_slot]
  | succ free => simp [endingStage, emitLiteral_slot]

/-- The Data stage, with bits left to send. -/
theorem dataStage_eq (prof : Profile) (p : Payload) (b : Block) (out : List Symbol) (free : Nat)
    (hbk : b.bk < 8 * p.length) (hse : b.se = 0) :
    dataStage prof p b out free =
      if free ≤ 8 * p.length - b.bk then
        ⟨if free = 8 * p.length - b.bk then { b with st := .ending, bk := 0 }
          else { b with st := .data, bk := b.bk + free },
          out ++ (payloadBits p b.bk free).map prof.bitSym, some .paused⟩
      else
        ⟨{ b with st := .leading, bk := 0, pkt := none },
          out ++ (payloadBits p b.bk (8 * p.length - b.bk)).map prof.bitSym ++ [prof.endSym], some .complete⟩ := by
  unfold dataStage
  by_cases h : free ≤ 8 * p.length - b.bk
  · have hb : burst (8 * p.length) b.bk free = free := by unfold burst; omega
    simp only [bitEncode, hb, h, reportFull, reportDone, progressAfter]
    by_cases h3 : free = 8 * p.length - b.bk
    · simp [h3, show b.bk + (8 * p.length - b.bk) = 8 * p.length by omega]
    · simp [h3, show ¬ b.bk + free = 8 * p.length by omega]
  · have hb : burst (8 * p.length) b.bk free = 8 * p.length - b.bk := by unfold burst; omega
    have h0 : ¬ free - (8 * p.length - b.bk) = 0 := by omega
    simp only [bitEncode, hb, h, reportFull, reportDone, progressAfter, h0]
    simp only [show b.bk + (8 * p.length - b.bk) = 8 * p.length by omega, decide_true, decide_false, if_true,
      Bool.false_eq_true, if_false, List.length_map, payloadBits_length]
    rw [endingStage_eq prof ⟨.ending, 0, b.se, b.pkt⟩ _ _ hse]
    simp [h0]

/-- The Leading stage, at a packet's start. -/
theorem leadingStage_eq (prof : Profile) (p : Payload) (b : Block) (free : Nat) (hst : b.st = .leading)
    (hse : b.se = 0) :
    leadingStage prof p b [] free =
      if free = 0 then ⟨b, [], some .paused⟩
      else if free = 1 then ⟨{ b with st := .data }, [prof.leadSym], some .paused⟩
      else dataStage prof p { b with st := .data } [prof.leadSym] (free - 1) := by
  obtain ⟨st, bk, se, pkt⟩ := b
  simp only at hst hse
  subst hst hse
  cases free with
  | zero => simp [leadingStage, emitLiteral_no_slot]
  | succ free =>
    by_cases hf : free = 0 <;> simp [leadingStage, emitLiteral_slot, hf]

end Sys2Proof.Machine
end

