-- ==== Sys2Proof/Laws/PerInstr.lean ====
section
/-! SUPPORT. Per-instruction statements about the encoding: the first byte an instruction is written with selects the
operation it is, whatever FLAGS holds. -/

namespace Sys2Proof

/-- The operation an instruction is, as the selector table names it. -/
def Instr.selector : Instr → Selector
  | .step _ _ => .step
  | .reset => .reset
  | .set _ _ _ _ _ => .set
  | .fill _ _ _ => .fill
  | .rand _ _ _ _ _ => .rand
  | .setPixelColor _ _ _ _ => .setPixelColor
  | .setFlags _ => .setFlags
  | .sendRaw (some _) => .sendRaw
  | .sendRaw none => .sendAbsent
  | .hostBegin => .hostBegin
  | .hostEnd => .hostEnd
  | .construct _ _ => .construct

namespace Laws.FirstByte

/-- Whatever FLAGS holds, the first byte selects the instruction's operation. -/
def Statement (i : Instr) : Prop := ∀ flags : BitVec 3, selectorOf (firstByte flags i) = some i.selector

theorem step (cap : Nat) (payload : List (BitVec 8)) : Statement (.step cap payload) :=
  fun _ => (by decide : selectorOf 0x00 = some .step)

theorem reset : Statement .reset :=
  fun _ => (by decide : selectorOf 0x01 = some .reset)

theorem set (mask index r g b : BitVec 8) : Statement (.set mask index r g b) := selectorOf_set

theorem fill (r g b : BitVec 8) : Statement (.fill r g b) := selectorOf_fill

theorem rand (mask index r g b : BitVec 8) : Statement (.rand mask index r g b) := selectorOf_rand

theorem setPixelColor (index r g b : BitVec 8) : Statement (.setPixelColor index r g b) :=
  fun _ => (by decide : selectorOf 0x80 = some .setPixelColor)

theorem setFlags (flagByte : BitVec 8) : Statement (.setFlags flagByte) :=
  fun _ => (by decide : selectorOf 0x81 = some .setFlags)

theorem sendRaw (payload : Option (List (BitVec 8))) : Statement (.sendRaw payload) := by
  cases payload with
  | none => exact fun _ => (by decide : selectorOf 0x86 = some .sendAbsent)
  | some p => exact fun _ => (by decide : selectorOf 0x82 = some .sendRaw)

theorem hostBegin : Statement .hostBegin :=
  fun _ => (by decide : selectorOf 0x83 = some .hostBegin)

theorem hostEnd : Statement .hostEnd :=
  fun _ => (by decide : selectorOf 0x84 = some .hostEnd)

theorem construct (pin : BitVec 32) (tb : BitVec 8) : Statement (.construct pin tb) :=
  fun _ => (by decide : selectorOf 0x85 = some .construct)

end Laws.FirstByte

end Sys2Proof
end

