-- ==== Sys2Proof/Laws/Step.lean ====
section
/-! SUPPORT. What a STEP request, an instruction and a step can do, said once each: if it answers a next state, then one of
these cases holds. -/

namespace Sys2Proof.Machine

/-- A STEP request that answers a next state raised the first failing check, or ran STEP_body. -/
theorem stepRequest_cases {s t : State} {cap : Nat} {p : Payload} (h : stepRequest cap p s = .next t) :
    (admission s.impl cap p s.blk ≠ .none ∧ t = s.raise (admission s.impl cap p s.blk)) ∨
      (admission s.impl cap p s.blk = .none ∧
        ∃ blk out st, stepBody s.profile p cap (s.blk.latch p) = ⟨blk, out, some st⟩ ∧ t = s.commit blk out st) := by
  unfold stepRequest at h
  split at h
  · next ha => exact .inl ⟨ha, (Host.Outcome.next.inj h).symm⟩
  · next ha =>
    refine .inr ⟨not_not.1 ha, ?_⟩
    split at h
    · next blk out st hb => exact ⟨blk, out, st, hb, (Host.Outcome.next.inj h).symm⟩
    · cases h

/-- STEP never answers a refusal, and its one fault is the pseudocode's "not reached". -/
theorem stepRequest_stops {s : State} {cap : Nat} {p : Payload} :
    (∀ r, stepRequest cap p s ≠ .refused r) ∧
      ∀ r, stepRequest cap p s = .fault r → r = .progressOutOfRange ∧
        (stepBody s.profile p cap (s.blk.latch p)).status = none ∧ admission s.impl cap p s.blk = .none := by
  unfold stepRequest
  constructor
  · intro r
    split
    · simp
    · split <;> simp
  · intro r h
    split at h
    · cases h
    · next ha =>
      split at h
      · cases h
      · next hb =>
        cases h
        exact ⟨rfl, by simp [hb], not_not.1 ha⟩

/-- An instruction that answers a next state: a STEP, a RESET, a payload sent, FLAGS written, or one of the three calls of
the controller. Only a construction does so from a fault. -/
theorem exec_cases {i : Instr} {s t : State} (h : exec i s = .next t) :
    (s.fault = .none ∧
      ((∃ cap p, i = .step cap p ∧ stepRequest cap p s = .next t) ∨
        (i = .reset ∧ t = if s.inFlight then s.raise .resetInFlight else s.resetBlock) ∨
        (∃ payload, (∀ cap p, i ≠ .step cap p) ∧ t = s.send payload) ∨
        (∃ f, i = .setFlags f ∧ t = s.putFlags f) ∨
        (i = .hostBegin ∧ t = s.beginCall) ∨
        (i = .hostEnd ∧ t = s.endCall))) ∨
      ∃ pin tb, i = .construct pin tb ∧ t = s.constructCall pin tb := by
  cases i with
  | construct pin tb => exact .inr ⟨pin, tb, rfl, (Host.Outcome.next.inj h).symm⟩
  | step cap p =>
    obtain ⟨hf, h⟩ := guarded_eq_next.1 h
    exact .inl ⟨hf, .inl ⟨cap, p, rfl, h⟩⟩
  | reset =>
    obtain ⟨hf, h⟩ := guarded_eq_next.1 h
    exact .inl ⟨hf, .inr (.inl ⟨rfl, (Host.Outcome.next.inj h).symm⟩)⟩
  | setFlags f =>
    obtain ⟨hf, h⟩ := guarded_eq_next.1 h
    exact .inl ⟨hf, .inr (.inr (.inr (.inl ⟨f, rfl, (Host.Outcome.next.inj h).symm⟩)))⟩
  | hostBegin =>
    obtain ⟨hf, h⟩ := guarded_eq_next.1 h
    exact .inl ⟨hf, .inr (.inr (.inr (.inr (.inl ⟨rfl, (Host.Outcome.next.inj h).symm⟩))))⟩
  | hostEnd =>
    obtain ⟨hf, h⟩ := guarded_eq_next.1 h
    exact .inl ⟨hf, .inr (.inr (.inr (.inr (.inr ⟨rfl, (Host.Outcome.next.inj h).symm⟩))))⟩
  | set | fill | rand | setPixelColor | sendRaw =>
    obtain ⟨hf, h⟩ := guarded_eq_next.1 h
    exact .inl ⟨hf, .inr (.inr (.inl ⟨_, by simp, (Host.Outcome.next.inj h).symm⟩))⟩

/-- The host's next request, where it answers a next state. -/
theorem nextRequest_cases {s t : State} (h : nextRequest s = .next t) :
    (s.fault = .none ∧ s.inbox = [] ∧ t = s) ∨
      ∃ i rest, decode s.inbox = .ok (i, rest) ∧ exec i (s.consume rest) = .next t := by
  unfold nextRequest at h
  split at h
  · next hb =>
    obtain ⟨hf, h⟩ := guarded_eq_next.1 h
    exact .inl ⟨hf, hb, (Host.Outcome.next.inj h).symm⟩
  · split at h
    · exact absurd (guarded_eq_next.1 h).2 (by simp)
    · next i rest hd => exact .inr ⟨i, rest, hd, h⟩

/-- A step that answers a next state: the host goes on with its wait, makes no call or runs its next request; or the
engine makes one of its moves. Only the host's next request runs from a fault. -/
theorem step_cases {s t : State} (h : step s = .next t) :
    (s.nextTurn = .host ∧
      ((s.fault = .none ∧ ∃ w, s.wait = some w ∧ t = s.afterTurn.resume w) ∨
        (s.fault = .none ∧ s.wait = none ∧ t = s.afterTurn) ∨
        ((s.fault ≠ .none ∨ s.wait = none) ∧
          ∃ i rest, decode s.inbox = .ok (i, rest) ∧ exec i (s.afterTurn.consume rest) = .next t))) ∨
      (s.fault = .none ∧
        ((∃ cap, s.nextTurn = .invoke cap ∧ engineInvoke cap s.afterTurn = .next t) ∨
          (s.nextTurn = .send ∧ t = s.afterTurn.sendSegment) ∨
          (s.nextTurn = .settle ∧ t = s.afterTurn.settle) ∨
          (s.nextTurn = .done ∧ t = s.afterTurn.doneEvent) ∨
          (s.nextTurn = .fail ∧ t = s.afterTurn.txFail))) := by
  have request : (s.fault ≠ .none ∨ s.wait = none) → nextRequest s.afterTurn = .next t →
      (s.fault = .none ∧ ∃ w, s.wait = some w ∧ t = s.afterTurn.resume w) ∨
        (s.fault = .none ∧ s.wait = none ∧ t = s.afterTurn) ∨
        ((s.fault ≠ .none ∨ s.wait = none) ∧
          ∃ i rest, decode s.inbox = .ok (i, rest) ∧ exec i (s.afterTurn.consume rest) = .next t) := by
    intro hw hn
    rcases nextRequest_cases hn with ⟨hf, _, rfl⟩ | ⟨i, rest, hd, he⟩
    · rcases hw with hw | hw
      · exact absurd hf hw
      · exact .inr (.inl ⟨hf, hw, rfl⟩)
    · exact .inr (.inr ⟨hw, i, rest, hd, he⟩)
  unfold step runTurn at h
  cases hn : s.nextTurn with
  | host =>
    refine .inl ⟨rfl, ?_⟩
    simp only [hn, hostTurn, afterTurn_wait, afterTurn_fault] at h
    rcases Option.eq_none_or_eq_some s.wait with hw | ⟨w, hw⟩
    · simp only [hw] at h
      exact request (.inr hw) h
    · by_cases hf : s.fault = .none
      · simp only [hw, hf, if_true] at h
        exact .inl ⟨hf, w, hw, (Host.Outcome.next.inj h).symm⟩
      · simp only [hw, hf, if_false] at h
        exact request (.inl hf) h
  | invoke cap =>
    simp only [hn, guarded_eq_next, afterTurn_fault] at h
    exact .inr ⟨h.1, .inl ⟨cap, rfl, h.2⟩⟩
  | send | settle | done | fail =>
    simp only [hn, guarded_eq_next, afterTurn_fault] at h
    exact .inr ⟨h.1, by simp [Host.Outcome.next.inj h.2]⟩

end Sys2Proof.Machine
end

