-- ==== Sys2Proof/Tests/Slice0.lean ====
section
/-! SUPPORT. Tests of the model: every expected value is from spec/, named beside the test; and, for every statement
with hypotheses, a state and operands that meet them (witness_<the statement's name>). -/

namespace Sys2Proof.Tests

open Sys2Proof.Machine

/-! ### What the tests share -/

/-- The four symbols at TB = 70 (spec/30_encoding.md R75). -/
def lead : Symbol := ⟨69, .low, 1, .low⟩
def fin : Symbol := ⟨489, .high, 1, .high⟩
def b0 : Symbol := ⟨70, .high, 70, .low⟩
def b1 : Symbol := ⟨210, .high, 70, .low⟩

/-- The construction state at TB = 70, with the parameters of spec/95_test_vectors.md 2.4. -/
def ready : State :=
  { State.reset with
    impl := ⟨64, 16, defaultRatios⟩
    idleLevel := .low
    line := .low
    fails := [false]
    dummies := [[]] }

/-- The same, begun. -/
def on : State := { ready with begun := true, idleLevel := .high }

/-- The same, with a packet in flight. -/
def flying (p : Payload) : State := { on with inFlight := true, tx := some ⟨.packet p, .stepping, .high⟩ }

/-- A block in the middle of a packet. -/
def mid (b : Block) : State := { ready with blk := b }

/-- What a STEP shows: the slots, the response, the block and the fault register. -/
structure StepView where
  dst : List Symbol
  resp : Option Response
  blk : Block
  fault : FaultCode
deriving DecidableEq, Repr

/-- The view of a STEP's answer. -/
def shown : Result → Option StepView
  | .next s => some ⟨s.dst, s.resp, s.blk, s.fault⟩
  | .fault _ => none
  | .refused _ => none

/-- What a host call shows: FLAGS, begun, in_flight, the wait, the transmission and the fault register. -/
structure HostView where
  flags : BitVec 3
  begun : Bool
  inFlight : Bool
  wait : Option HostWait
  tx : Option Transmission
  fault : FaultCode
deriving DecidableEq, Repr

/-- The view of a host call's answer. -/
def hostShown : Result → Option HostView
  | .next s => some ⟨s.flags, s.begun, s.inFlight, s.wait, s.tx, s.fault⟩
  | .fault _ => none
  | .refused _ => none

/-! ### Well-formedness: an ill-formed term for each check -/

/-- spec/30_encoding.md R78: with MAX_BATCH = 64 cap's field has ceil(log2(65)) = 7 bits, with 63 it has 6. -/
theorem test_wf_step_cap :
    (Instr.step 128 []).wellFormed 64 = false ∧ (Instr.step 127 []).wellFormed 64 = true ∧
    (Instr.step 64 []).wellFormed 63 = false ∧ capWidth 64 = 7 ∧ capWidth 63 = 6 ∧ capWidth 1 = 1 := by decide

/-! ### Decoding, word by word -/

/-- spec/30_encoding.md R77, R78: op = 0, then (log 1) cap = 10 and the payload [0x18, 0, 0, 0]. -/
theorem test_decode_step :
    decode [0b00000000, 10, 4, 0x18, 0, 0, 0] = .ok (.step 10 [0x18, 0, 0, 0], []) := by decide

/-- spec/30_encoding.md R77, R79: op = 1, no operands. -/
theorem test_decode_reset : decode [0b00000001, 0x30] = .ok (.reset, [0x30]) := by decide

/-- spec/30_encoding.md R81, R82: kind 00110 at flags 000 and 111; the example of spec/44_command_encoder.md R181. -/
theorem test_decode_set :
    decode [0b00110000, 0x0F, 0x03, 0x01, 0x02, 0x03] = .ok (.set 0x0F 3 1 2 3, []) ∧
    decode [0b00110111, 0x0F, 0x03, 0x01, 0x02, 0x03] = .ok (.set 0x0F 3 1 2 3, []) := by decide

/-- spec/30_encoding.md R81, R82: kind 00011 at flags 000 and 111. -/
theorem test_decode_fill :
    decode [0b00011000, 1, 2, 3] = .ok (.fill 1 2 3, []) ∧
    decode [0b00011111, 1, 2, 3] = .ok (.fill 1 2 3, []) := by decide

/-- spec/30_encoding.md R81, R82: kind 01001 at flags 101. -/
theorem test_decode_rand :
    decode [0b01001101, 0x1A, 0x23, 1, 2, 3] = .ok (.rand 0x1A 0x23 1 2 3, []) := by decide

/-- The host calls' bytes are the model's own (log 1); the operands follow in the order of the call
(spec/30_encoding.md R86). -/
theorem test_decode_host_calls :
    decode [0x80, 5, 255, 0, 1] = .ok (.setPixelColor 5 255 0 1, []) ∧
    decode [0x81, 0xFF] = .ok (.setFlags 0xFF, []) ∧
    decode [0x82, 2, 0x80, 0x01] = .ok (.sendRaw (some [0x80, 0x01]), []) ∧
    decode [0x86] = .ok (.sendRaw none, []) ∧
    decode [0x83] = .ok (.hostBegin, []) ∧
    decode [0x84] = .ok (.hostEnd, []) ∧
    decode [0x85, 0x0D, 0, 0, 0, 70] = .ok (.construct 13 70, []) := by decide

/-- A first byte of none of the rows, and operands that end too early, are refused by name. -/
theorem test_decode_refuses :
    decode [0b00101000, 0, 0, 0, 0, 0] = .error (.unknownSelector 0b00101000) ∧
    decode [0b00011000, 1, 2] = .error .truncated ∧ decode [] = .error .noBytes := by decide

/-- No first byte selects two operations. -/
theorem test_selectors_disjoint :
    ∀ b : Byte, (selectorTable.filter fun row => row.matches b).length ≤ 1 := by decide

/-! ### The profile and the symbols (spec/95_test_vectors.md 2.1) -/

theorem test_profile_words :
    profileOf 2 defaultRatios = ⟨2, 2, 6, 2, 1, 13⟩ ∧
    profileOf 255 defaultRatios = ⟨255, 255, 765, 255, 254, 1784⟩ ∧
    symbolWord (profileOf 2 defaultRatios).leadSym = 0x00010001#32 ∧
    symbolWord (profileOf 2 defaultRatios).endSym = 0x8001800D#32 ∧
    symbolWord (profileOf 100 defaultRatios).endSym = 0x800182BB#32 ∧
    symbolWord (profileOf 100 defaultRatios).bit1Sym = 0x0064812C#32 ∧
    symbolWord (profileOf 255 defaultRatios).bit0Sym = 0x00FF80FF#32 ∧
    symbolWord (profileOf 255 defaultRatios).bit1Sym = 0x00FF82FD#32 ∧
    configOk 0 defaultRatios = false ∧ configOk 1 defaultRatios = false := by decide

/-! ### The capabilities (spec/95_test_vectors.md 2.2 and 2.3) -/

/-- Bits split inside a byte and across bytes: the rows of [0xA5] and of [0x80, 0x01]. -/
theorem test_bitEncode :
    bitEncode ready.profile [0xA5] 0 3 = ⟨[b1, b0, b1], 3, false, true⟩ ∧
    bitEncode ready.profile [0xA5] 3 8 = ⟨[b0, b0, b1, b0, b1], 0, true, false⟩ ∧
    bitEncode ready.profile [0x00] 7 1 = ⟨[b0], 0, true, true⟩ ∧
    bitEncode ready.profile [0x80, 0x01] 6 4 = ⟨[b0, b0, b0, b0], 10, false, true⟩ ∧
    bitEncode ready.profile [0x18, 0, 0, 0] 5 0 = ⟨[], 5, false, true⟩ := by decide

theorem test_emitLiteral :
    emitLiteral [lead] 0 0 = ⟨[], 0, false, true⟩ ∧ emitLiteral [lead] 0 1 = ⟨[lead], 0, true, true⟩ ∧
    emitLiteral [lead] 0 5 = ⟨[lead], 0, true, false⟩ := by decide

/-! ### STEP and RESET (spec/95_test_vectors.md 2.4) -/

/-- S1, the first row: the body crosses from Leading to Data and pauses inside the payload. -/
theorem test_step_pauses_in_data :
    shown (exec (.step 10 [0x18, 0, 0, 0]) ready) =
      some ⟨[lead, b0, b0, b0, b1, b1, b0, b0, b0, b0], some ⟨10, .paused⟩,
        ⟨.data, 9, 0, some [0x18, 0, 0, 0]⟩, .none⟩ := by decide

/-- S6: the data fills the slots exactly, which pauses in Ending; then END in the last slot is Complete. -/
theorem test_step_fills_exactly :
    shown (exec (.step 9 [0xFF]) ready) =
      some ⟨[lead, b1, b1, b1, b1, b1, b1, b1, b1], some ⟨9, .paused⟩, ⟨.ending, 0, 0, some [0xFF]⟩, .none⟩ ∧
    shown (exec (.step 1 [0xFF]) (mid ⟨.ending, 0, 0, some [0xFF]⟩)) =
      some ⟨[fin], some ⟨1, .complete⟩, ⟨.leading, 0, 0, none⟩, .none⟩ := by decide

/-- R1 and R2. -/
theorem test_reset :
    (shown (exec .reset (mid ⟨.data, 3, 0, some [0xA5]⟩))).map (fun x => (x.blk, x.fault)) =
      some (⟨.leading, 0, 0, none⟩, .none) ∧
    (shown (exec .reset (mid ⟨.ending, 0, 0, some [0xFF]⟩))).map (fun x => (x.blk, x.fault)) =
      some (⟨.leading, 0, 0, none⟩, .none) := by decide

/-! ### The command builders (spec/95_test_vectors.md 2.5) -/

/-- V-CE4. -/
theorem test_set :
    hostShown (exec (.set 0x0F 3 1 2 3) on) =
      some ⟨0, true, true, none,
        some ⟨.packet [0x30, 0x0F, 0x03, 0x01, 0x02, 0x03], .stepping, .high⟩, .none⟩ := by decide

/-- V-CE5. -/
theorem test_setPixelColor :
    hostShown (exec (.setPixelColor 5 255 0 0) on) =
      some ⟨0, true, true, none,
        some ⟨.packet [0x30, 0xFF, 0x05, 0xFF, 0x00, 0x00], .stepping, .high⟩, .none⟩ := by decide

/-- V-CE6, and V-TC1: ignored where not begun. -/
theorem test_fill :
    hostShown (exec (.fill 0 0 0) on) =
      some ⟨0, true, true, none, some ⟨.packet [0x18, 0x00, 0x00, 0x00], .stepping, .high⟩, .none⟩ ∧
    hostShown (exec (.fill 0 0 0) ready) = some ⟨0, false, false, none, none, .none⟩ := by decide

/-- V-CE7 and V-CE8. -/
theorem test_rand :
    (hostShown (exec (.rand 0x1A 0x23 1 2 3) { on with flags := 5 })).map (fun x => x.tx) =
      some (some ⟨.packet [0x4D, 0xA3, 0x01, 0x02, 0x03], .stepping, .high⟩) ∧
    (hostShown (exec (.rand 0xF0 0xF0 9 9 9) on)).map (fun x => x.tx) =
      some (some ⟨.packet [0x48, 0x00, 0x09, 0x09, 0x09], .stepping, .high⟩) := by decide

/-- V-CE2, V-CE3, and V-CE9: a packet in flight keeps its bytes. -/
theorem test_setFlags :
    hostShown (exec (.setFlags 0x08) { on with flags := 7 }) = some ⟨0, true, false, none, none, .none⟩ ∧
    hostShown (exec (.setFlags 0xFF) ready) = some ⟨7, false, false, none, none, .none⟩ ∧
    hostShown (exec (.setFlags 7) (flying [0x18, 1, 2, 3])) =
      some ⟨7, true, true, none, some ⟨.packet [0x18, 1, 2, 3], .stepping, .high⟩, .none⟩ ∧
    { ready with flags := 7 }.opcSet = 0x37 ∧ { ready with flags := 7 }.opcFill = 0x1F ∧
    { ready with flags := 7 }.opcRand = 0x4F := by decide

/-! ### The controller (spec/95_test_vectors.md 2.6) -/

/-- V-TC2, V-TC3 and V-TC4. -/
theorem test_sendRaw :
    hostShown (exec (.sendRaw (some [])) on) = some ⟨0, true, false, none, none, .none⟩ ∧
    (hostShown (exec (.sendRaw (some [])) (flying [1]))).map (fun x => x.wait) = some none ∧
    (hostShown (exec (.sendRaw (some [0xFF])) (flying [1]))).map (fun x => x.wait) =
      some (some (.sendRaw [0xFF])) := by decide

/-- V-TC7, and begin's own effect (spec/45_transmission_controller.md R200): begun, idle HIGH, the line as it was. -/
theorem test_begin :
    exec .hostBegin on = .next on ∧
    exec .hostBegin ready = .next { ready with begun := true, idleLevel := .high, fails := [] } := ⟨rfl, rfl⟩

/-- V-TC5 and V-TC6. -/
theorem test_end :
    exec .hostEnd ready = .next ready ∧
    exec .hostEnd (flying [1]) = .next { flying [1] with fault := .endInFlight } := ⟨rfl, rfl⟩

/-- spec/45_transmission_controller.md R201: the idle level is LOW and the dummy transmission (a draw, log 5) is waited for. -/
theorem test_end_starts_dummy :
    hostShown (exec .hostEnd on) = some ⟨0, true, false, some .dummyDone, some ⟨.dummy, .draining, .low⟩, .none⟩ := by
  decide

/-- spec/95_test_vectors.md 2.1, rows 0 to 2: TB = 1 is refused, TB = 2 is not. -/
theorem test_construct :
    hostShown (exec (.construct 13 1) on) = some ⟨0, true, false, none, none, .configInvalid⟩ ∧
    hostShown (exec (.construct 13 2) { on with flags := 5 }) = some ⟨0, false, false, none, none, .none⟩ := by decide

/-! ### The step -/

/-- A table word runs as the first instruction after reset: RESET, and SET before begin, which is ignored. -/
theorem test_step_runs_table_words :
    decodeTableWord 8 0x01 = some .reset ∧
    (hostShown (step (State.reset.withFetchWord 8 0x01))).map (fun x => x.fault) = some .none ∧
    decodeTableWord 8 0x30 = some (.set 0 0 0 0 0) ∧
    (hostShown (step (State.reset.withFetchWord 8 0x30))).map (fun x => x.inFlight) = some false := by decide

/-! ### Witnesses: states and operands that meet the hypotheses of each statement -/

/-- The block of `ready` is healthy, and so is that of each state of the same configuration with a healthy block. -/
theorem ready_like_inv {s : State} (hi : s.impl = ready.impl) (ht : s.tb = ready.tb) (hp : s.profile = ready.profile)
    (hb : s.blk.wf ready.impl = true) : s.BlockInv :=
  ⟨by rw [hi]; decide, by rw [hi, ht]; decide, by rw [hi, ht, hp]; decide, by rw [hi]; exact hb⟩

/-- A number past one byte of the transport, and past 32 bits. -/
theorem test_numbers_read_back :
    writeNumber 300 = [0xAC, 0x02] ∧ readNumber (writeNumber 4294967296) = some (4294967296, []) := by decide

/-- A capacity at the bound, and one past it that its field still holds. -/
theorem witness_BlockRequestFields :
    64 ≤ ready.impl.maxBatch ∧ ready.BlockInv ∧ ready.admits 64 [0xA5] ∧
    (busRequest 64 (.step 64 [0xA5])).isSome = true ∧ (busRequest 64 (.step 65 [0xA5])).isSome = true ∧
    (busRequest 64 (.step 128 [0xA5])).isSome = false :=
  ⟨by decide, ready_like_inv rfl rfl rfl (by decide), by decide, by decide, by decide, by decide⟩

theorem witness_OpcodeConstantsFollowFlags :
    ∃ t, exec (.construct 13 255) { on with flags := 5 } = .next t ∧ t.fault = .none := ⟨_, rfl, rfl⟩

/-- Both ends of the admitted range, and the first value below it. -/
theorem witness_SymbolsClassify_and_ProfileRanges :
    2 ≤ (2 : Byte).toNat ∧ 2 ≤ (255 : Byte).toNat ∧ ¬ 2 ≤ (1 : Byte).toNat := by decide

/-- Ratios other than the defaults are admitted too, up to the width of a duration field. -/
theorem witness_SymbolsLastTheirRatios_and_PacketLineTime :
    configOk 2 defaultRatios = true ∧ configOk 255 ⟨128, 1, 128, 1, 1, 128⟩ = true ∧
    configOk 255 ⟨129, 1, 128, 1, 1, 128⟩ = false := by decide

theorem witness_ProfileImmutable :
    (∀ pin tb, Instr.reset ≠ .construct pin tb) ∧ (∃ t, exec .reset on = .next t) ∧
    Turn.invoke 64 ≠ .host ∧ ∃ t, runTurn (.invoke 64) (flying [0x80]) = .next t :=
  ⟨by simp, ⟨_, rfl⟩, by decide, ⟨_, rfl⟩⟩

/-- The last bit of a one-byte payload. -/
theorem witness_BitEncoderReports : 7 < 8 * ([0x00] : Payload).length := by decide

theorem witness_BitEncoderResumes :
    1 ≤ ([0xA5] : Payload).length ∧
    bitDrain ready.profile [0xA5] [3, 0, 8] 0 = some [b1, b0, b1, b0, b0, b1, b0, b1] := by decide

theorem witness_SymbolEmitterOutcomes :
    (emitLiteral [lead] 0 1).full = true ∧ (emitLiteral [lead] 0 2).full = false ∧
    (emitLiteral [lead] 0 0).full = true := by decide

/-- One admitted STEP for each branch of the closed form, each at a boundary of its range: Complete at the last slot,
no progress from Leading, the last position in Data, and Ending. -/
theorem witness_StepClosedForm :
    (ready.BlockInv ∧ ready.admits 10 [0xFF] ∧
      (shown (exec (.step 10 [0xFF]) ready)).map StepView.resp = some (some ⟨10, .complete⟩)) ∧
    (ready.BlockInv ∧ ready.admits 0 [0xFF] ∧
      (shown (exec (.step 0 [0xFF]) ready)).map StepView.blk = some ⟨.leading, 0, 0, some [0xFF]⟩) ∧
    (ready.BlockInv ∧ ready.admits 8 [0xFF] ∧
      (shown (exec (.step 8 [0xFF]) ready)).map StepView.blk = some ⟨.data, 7, 0, some [0xFF]⟩) ∧
    ((mid ⟨.data, 7, 0, some [0xFF]⟩).BlockInv ∧ (mid ⟨.data, 7, 0, some [0xFF]⟩).admits 1 [0xFF] ∧
      (shown (exec (.step 1 [0xFF]) (mid ⟨.data, 7, 0, some [0xFF]⟩))).map StepView.blk =
        some ⟨.ending, 0, 0, some [0xFF]⟩) :=
  ⟨⟨ready_like_inv rfl rfl rfl (by decide), by decide, by decide⟩,
    ⟨ready_like_inv rfl rfl rfl (by decide), by decide, by decide⟩,
    ⟨ready_like_inv rfl rfl rfl (by decide), by decide, by decide⟩,
    ⟨ready_like_inv rfl rfl rfl (by decide), by decide, by decide⟩⟩

/-- F1, F2, F3, F4 and F7 of spec/95_test_vectors.md, each at the boundary of its check. -/
theorem witness_StepAdmissionOrder :
    ready.fault = .none ∧
    (shown (exec (.step 65 []) ready)).map StepView.fault = some .capOutOfRange ∧
    (shown (exec (.step 64 []) ready)).map StepView.fault = some .emptyPayload ∧
    (shown (exec (.step 64 (List.replicate 17 0)) ready)).map StepView.fault = some .payloadTooLong ∧
    (shown (exec (.step 64 (List.replicate 16 0)) ready)).map StepView.fault = some .none ∧
    (shown (exec (.step 16 [0x5A]) (mid ⟨.data, 3, 0, some [0xA5]⟩))) =
      some ⟨[], none, ⟨.data, 3, 0, some [0xA5]⟩, .payloadChanged⟩ ∧
    ready.inFlight = false := by decide

/-- S4 of spec/95_test_vectors.md, its first row, and the same later in a packet. -/
theorem witness_StepWithNoSlots :
    ready.BlockInv ∧ ready.admits 0 [0x18, 0, 0, 0] ∧
    (mid ⟨.ending, 0, 0, some [0xFF]⟩).BlockInv ∧ (mid ⟨.ending, 0, 0, some [0xFF]⟩).admits 0 [0xFF] :=
  ⟨ready_like_inv rfl rfl rfl (by decide), by decide, ready_like_inv rfl rfl rfl (by decide), by decide⟩

/-- S5, its last row, which is Complete; and its second, which is Paused. -/
theorem witness_StepAnswersPausedOrComplete :
    (mid ⟨.data, 1, 0, some [0x80]⟩).BlockInv ∧ (mid ⟨.data, 1, 0, some [0x80]⟩).admits 9 [0x80] ∧
    (mid ⟨.data, 0, 0, some [0x80]⟩).BlockInv ∧ (mid ⟨.data, 0, 0, some [0x80]⟩).admits 1 [0x80] :=
  ⟨ready_like_inv rfl rfl rfl (by decide), by decide, ready_like_inv rfl rfl rfl (by decide), by decide⟩

theorem witness_StepFrame :
    (∃ t, exec (.step 10 [0xA5]) ready = .next t ∧ t.fault = .none) ∧
    (∃ t, exec (.step 65 [0xA5]) ready = .next t ∧ t.fault ≠ .none) := ⟨⟨_, rfl, rfl⟩, ⟨_, rfl, by decide⟩⟩

/-- The first and the last bit of a payload. -/
theorem witness_PacketSequence :
    0 < 8 * ([0x80] : Payload).length ∧ ([0x80] : Payload)[0 / 8]? = some 0x80 ∧
    7 < 8 * ([0x80] : Payload).length ∧ ([0x80] : Payload)[7 / 8]? = some 0x80 := by decide

/-- S5 of spec/95_test_vectors.md, drained. -/
theorem witness_DrainedPacketLength_and_DeterminismUnderChunking :
    ready.BlockInv ∧ ready.blk = Block.initial ∧
    ((drain [0x80] [1, 1, 9] ready).map fun x => x.2) =
      some ([lead, b1, b0, b0, b0, b0, b0, b0, b0, fin], drainStatuses 3) ∧
    8 * ([0x80] : Payload).length + 2 ≤ 10 ∧ 10 ≤ ready.impl.maxBatch :=
  ⟨ready_like_inv rfl rfl rfl (by decide), by decide, by decide, by decide, by decide⟩

/-- The smallest and the largest capacity. -/
theorem witness_NumberOfSteps :
    ready.BlockInv ∧ ready.blk = Block.initial ∧ ready.fault = .none ∧ 1 ≤ ([0x80] : Payload).length ∧
    ([0x80] : Payload).length ≤ ready.impl.maxPayload ∧ 1 ≤ 1 ∧ 64 ≤ ready.impl.maxBatch :=
  ⟨ready_like_inv rfl rfl rfl (by decide), by decide, by decide, by decide, by decide, by decide, by decide⟩

theorem witness_ResetRestoresBlock :
    (mid ⟨.data, 3, 0, some [0xA5]⟩).fault = .none ∧ (mid ⟨.data, 3, 0, some [0xA5]⟩).inFlight = false := by decide

theorem witness_ResetInFlightRaises : (flying [1]).fault = .none ∧ (flying [1]).inFlight = true := by decide

/-- F6 of spec/95_test_vectors.md, and the construction that ends a fault. -/
theorem witness_OnlyConstructionClearsFault :
    { ready with fault := .hwFail }.fault ≠ .none ∧ (∀ pin tb, Instr.reset ≠ .construct pin tb) ∧
    ∃ t, step { ready with fault := .hwFail, turns := [.host], inbox := [0x85, 0, 0, 0, 0, 70] } = .next t ∧
      t.fault = .none := ⟨by decide, by simp, ⟨_, rfl, rfl⟩⟩

theorem witness_FaultsArePrecise :
    ∃ t, step { flying [1] with turns := [.host], inbox := [0x84] } = .next t ∧
      { flying [1] with turns := [.host], inbox := [0x84] }.fault = .none ∧ t.fault ≠ .none :=
  ⟨_, rfl, rfl, by decide⟩

theorem witness_IgnoredCallsHaveNoEffect :
    ready.fault = .none ∧ ready.begun = false ∧ on.fault = .none ∧ on.begun = true := by decide

/-- The boundary of TB, and both answers of the allocation. -/
theorem witness_ConstructionFaults :
    ready.impl.ratios = defaultRatios ∧ (1 : Byte).toNat < 2 ∧ 2 ≤ (2 : Byte).toNat ∧ ready.nextFail = false ∧
    { ready with fails := [true] }.nextFail = true := by decide

theorem witness_ConstructionState : configOk 2 on.impl.ratios = true ∧ on.nextFail = false := by decide

/-- The hypotheses of the statements about a call made while begun and with nothing in flight:
SetFlagsTakesLowBits, SetSendsItsPayload, PixelColorIsSetAllMasked, FillSendsItsPayload, RandSendsItsPayload,
SendRawStartsOrHolds and EndStartsDummy. -/
theorem witness_calls_while_begun :
    on.fault = .none ∧ on.begun = true ∧ on.inFlight = false ∧ ([0x80] : Payload) ≠ [] ∧
    (∃ t, exec (.setFlags 0xFF) on = .next t) ∧ on.dummies = [[]] ∧ { on with dummies := [] }.dummies = [] :=
  ⟨by decide, by decide, by decide, by decide, ⟨_, rfl⟩, rfl, rfl⟩

theorem witness_CommandFrame :
    (∃ t, exec (.fill 1 2 3) on = .next t) ∧ (∃ t, exec (.sendRaw (some [1])) (flying [2]) = .next t) :=
  ⟨⟨_, rfl⟩, ⟨_, rfl⟩⟩

/-- A packet in flight, and a payload just longer than the bound. -/
theorem witness_SendRawStartsOrHolds :
    (flying [1]).inFlight = true ∧ on.impl.maxPayload < (List.replicate 17 (0 : Byte)).length ∧
    ∃ t, exec (.sendRaw (some (List.replicate 17 0))) on = .next t := ⟨by decide, by decide, ⟨_, rfl⟩⟩

theorem witness_HeldSendRawResumes :
    { flying [1] with wait := some (.sendRaw [2]), turns := [.host] }.inFlight = true ∧
    { on with wait := some (.sendRaw [2]), turns := [.host] }.inFlight = false ∧
    { on with wait := some (.sendRaw [2]), turns := [.host] }.fault = .none ∧
    { on with wait := some (.sendRaw [2]), turns := [.host] }.wait = some (.sendRaw [2]) ∧
    { on with wait := some (.sendRaw [2]), turns := [.host] }.turns = [.host] := by decide

/-- A packet in flight whose first STEP comes next. -/
def stepping : State := { flying [0x80] with turns := [.invoke 64] }

/-- The host's side of a packet in flight is healthy. -/
theorem stepping_hostInv : stepping.HostInv :=
  ⟨by decide, by decide, by decide, by simp [stepping, flying, on, ready, State.reset], by simp [stepping, flying],
    by simp [stepping, flying, on, ready, State.reset], by simp [stepping, flying]⟩

/-- The controller's side of a packet in flight is healthy. -/
theorem stepping_drivenInv : stepping.DrivenInv :=
  ⟨fun h => absurd rfl (h [0x80] .high), fun _ _ _ => .inl rfl, by simp [stepping, flying]⟩

theorem witness_AtMostOneInFlight :
    stepping.HostInv ∧ stepping.tx = some ⟨.packet [0x80], .stepping, .high⟩ ∧ ∃ t, step stepping = .next t :=
  ⟨stepping_hostInv, rfl, ⟨_, rfl⟩⟩

theorem witness_BeginEnables :
    ready.fault = .none ∧ ready.begun = false ∧ ready.fails = [false] ∧ { ready with fails := [true] }.fails = [true] ∧
    { ready with fails := [] }.fails = [] := by decide

theorem witness_EndInFlightRaises : (flying [1]).fault = .none ∧ (flying [1]).begun = true ∧ (flying [1]).inFlight = true := by
  decide

theorem witness_EndSequence :
    on.fault = .none ∧ on.begun = true ∧ on.inFlight = false ∧ on.fails = [false] ∧ ∃ t, exec .hostEnd on = .next t :=
  ⟨by decide, by decide, by decide, rfl, ⟨_, rfl⟩⟩

theorem witness_HardwareFailures :
    { on with wait := some .dummyDone, turns := [.host], fails := [true] }.tx = none ∧
    { on with wait := some .dummyDone, turns := [.host], fails := [true] }.fault = .none ∧
    { on with wait := some .dummyDone, turns := [.host], fails := [true] }.wait = some .dummyDone ∧
    { on with wait := some .dummyDone, turns := [.host], fails := [true] }.turns = [.host] ∧
    { on with wait := some .dummyDone, turns := [.host], fails := [true] }.fails = [true] ∧
    (flying [1]).tx = some ⟨.packet [1], .stepping, .high⟩ ∧ (flying [1]).fault = .none := by decide

/-- A capacity at the bound; STEPs that answer Complete, Paused, and a fault. -/
theorem witness_EngineInvokesStep :
    (flying [0x80]).fault = .none ∧ 64 ≤ (flying [0x80]).impl.maxBatch ∧
    (flying [0x80]).tx = some ⟨.packet [0x80], .stepping, .high⟩ ∧
    (shown (exec (.step 64 [0x80]) (flying [0x80]))).map StepView.resp = some (some ⟨10, .complete⟩) ∧
    (shown (exec (.step 1 [0x80]) (flying [0x80]))).map StepView.resp = some (some ⟨1, .paused⟩) ∧
    (shown (exec (.step 1 (List.replicate 17 0)) (flying (List.replicate 17 0)))).map StepView.fault =
      some .payloadTooLong := by decide

theorem witness_LineFollowsTheBuffer :
    { flying [1] with buf := [⟨69, .low⟩] }.buf = [⟨69, .low⟩] ∧ { flying [1] with buf := [⟨69, .low⟩] }.fault = .none ∧
    { on with tx := some ⟨.dummy, .draining, .low⟩ }.buf = [] ∧
    { on with tx := some ⟨.dummy, .draining, .low⟩ }.tx = some ⟨.dummy, .draining, .low⟩ ∧
    { on with tx := some ⟨.dummy, .draining, .low⟩, buf := [⟨69, .low⟩] }.buf ≠ [] := by decide

/-- A packet whose line is idle: the done event is due. -/
def settled : State := { on with inFlight := true, line := .high, tx := some ⟨.packet [0x80], .idled, .high⟩ }

theorem witness_DoneEventEndsFlight :
    settled.fault = .none ∧ settled.tx = some ⟨.packet [0x80], .idled, .high⟩ ∧ settled.inFlight = true ∧
    settled.DrivenInv ∧ (∃ t, runTurn .done settled = .next t ∧ t.inFlight = false) ∧
    (flying [1]).tx = some ⟨.packet [1], .stepping, .high⟩ ∧ TxPhase.stepping ≠ .idled :=
  ⟨rfl, rfl, rfl, ⟨fun _ => rfl, by simp [settled], by simp [settled, on, ready, State.reset]⟩, ⟨_, rfl, rfl⟩, rfl,
    by decide⟩

/-- A packet of one byte, its symbols sent as they come. -/
theorem witness_PacketReachesTheLine :
    (flying [0x80]).BlockInv ∧ (flying [0x80]).blk = Block.initial ∧ (flying [0x80]).fault = .none ∧
    (flying [0x80]).tx = some ⟨.packet [0x80], .stepping, .high⟩ ∧
    (∀ t ∈ Turn.invoke 1 :: .send :: .invoke 64 :: (List.replicate 19 .send ++ [.settle]), turnCarries t = true) ∧
    (runTurns (Turn.invoke 1 :: .send :: .invoke 64 :: (List.replicate 19 .send ++ [.settle])) (flying [0x80])).map
      State.tx = some (some ⟨.packet [0x80], .idled, .high⟩) :=
  ⟨ready_like_inv rfl rfl rfl (by decide), by decide, by decide, by decide, by decide, by decide⟩

theorem witness_StepRunsTheRequest :
    (ready.place [0x18, 1, 2, 3]).nextTurn = .host ∧ (ready.place [0x18, 1, 2, 3]).wait = none ∧
    decode (ready.place [0x18, 1, 2, 3]).inbox = .ok (.fill 1 2 3, []) := by decide

theorem witness_StepKeepsBlockInv : (ready.place [0x01]).BlockInv ∧ ∃ t, step (ready.place [0x01]) = .next t :=
  ⟨ready_like_inv rfl rfl rfl (by decide), ⟨_, rfl⟩⟩

theorem witness_NoStepFallsThrough :
    { ready with fault := .hwFail, turns := [.send] }.BlockInv ∧
    step { ready with fault := .hwFail, turns := [.send] } = .fault (.stuck .hwFail) :=
  ⟨ready_like_inv rfl rfl rfl (by decide), rfl⟩

/-- A packet in flight at its first STEP: the three invariants hold, and the step is the engine's. -/
theorem witness_StepKeepsHostInv_DrivenInv_and_ControllerKeepsTheCallersDuties :
    stepping.BlockInv ∧ stepping.HostInv ∧ stepping.DrivenInv ∧ stepping.directStep = false ∧ stepping.fault = .none ∧
    ∃ t, step stepping = .next t :=
  ⟨ready_like_inv rfl rfl rfl (by decide), stepping_hostInv, stepping_drivenInv, by decide, by decide, ⟨_, rfl⟩⟩

end Sys2Proof.Tests
end

/-! PROOFS. The invariants of the block, and of host and engine: what each rests on, which operations leave that alone,
and why the others keep it; the states right after reset; and the opcode constants. -/

namespace Sys2Proof.Machine

/-! ### What the block's invariant rests on -/

/-- The part of the state that `State.BlockInv` speaks of. -/
def State.blockView (s : State) : Impl × Byte × Profile × Block := (s.impl, s.tb, s.profile, s.blk)

/-- The block's invariant depends on nothing but its view. -/
theorem State.BlockInv.of_blockView_eq {s t : State} (hs : s.BlockInv) (hv : t.blockView = s.blockView) :
    t.BlockInv := by
  obtain ⟨himpl, htb, hprof, hblk⟩ :
      t.impl = s.impl ∧ t.tb = s.tb ∧ t.profile = s.profile ∧ t.blk = s.blk := by
    simpa [State.blockView] using hv
  refine ⟨?_, ?_, ?_, ?_⟩
  · rw [himpl]; exact hs.impl_ok
  · rw [himpl, htb]; exact hs.config_ok
  · rw [himpl, htb, hprof]; exact hs.profile_fixed
  · rw [himpl, hblk]; exact hs.blk_wf

/-- A healthy block in the same configuration keeps the invariant. -/
theorem State.BlockInv.of_blk_wf {s t : State} (hs : s.BlockInv)
    (hv : t.blockView = (s.impl, s.tb, s.profile, t.blk)) (hb : t.blk.wf s.impl = true) : t.BlockInv := by
  have hmid : ({ s with blk := t.blk } : State).BlockInv := ⟨hs.impl_ok, hs.config_ok, hs.profile_fixed, hb⟩
  exact hmid.of_blockView_eq hv

@[simp] theorem send_blockView (payload : Option Payload) (s : State) : (s.send payload).blockView = s.blockView := by
  obtain h | ⟨p, -, -, -, ⟨-, h⟩ | ⟨-, h⟩⟩ := send_cases payload s <;> simp [State.blockView, h]

@[simp] theorem resume_blockView (w : HostWait) (s : State) : (s.resume w).blockView = s.blockView := by
  obtain h | ⟨p, -, -, h⟩ | ⟨-, -, ⟨-, h⟩ | ⟨-, h⟩⟩ := resume_cases w s <;> simp [State.blockView, h]

@[simp] theorem beginCall_blockView (s : State) : s.beginCall.blockView = s.blockView := by
  obtain h | ⟨-, -, h⟩ | ⟨-, -, h⟩ := beginCall_cases s <;> simp [State.blockView, h]

@[simp] theorem endCall_blockView (s : State) : s.endCall.blockView = s.blockView := by
  obtain h | ⟨-, -, h⟩ | ⟨-, -, h⟩ := endCall_cases s <;> simp [State.blockView, h]

@[simp] theorem afterInvoke_blockView (s : State) : s.afterInvoke.blockView = s.blockView := by
  obtain h | ⟨-, -, h⟩ := afterInvoke_cases s <;> simp [State.blockView, h]

@[simp] theorem sendSegment_blockView (s : State) : s.sendSegment.blockView = s.blockView := by
  obtain h | ⟨seg, rest, -, h⟩ := sendSegment_cases s <;> simp [State.blockView, h]

@[simp] theorem settle_blockView (s : State) : s.settle.blockView = s.blockView := by
  obtain h | ⟨source, idle, -, -, h⟩ := settle_cases s <;> simp [State.blockView, h]

@[simp] theorem doneEvent_blockView (s : State) : s.doneEvent.blockView = s.blockView := by
  obtain h | ⟨p, idle, -, h⟩ | ⟨idle, -, h⟩ := doneEvent_cases s <;> simp [State.blockView, h]

@[simp] theorem txFail_blockView (s : State) : s.txFail.blockView = s.blockView := by
  obtain h | ⟨-, h⟩ := txFail_cases s <;> simp [State.blockView, h]

/-! ### STEP keeps a healthy block -/

/-- STEP's admission passes exactly where none of its four checks fails (spec/43_waveform_encoder.md R150). -/
theorem admission_eq_none_iff {impl : Impl} {cap : Nat} {p : Payload} {b : Block} :
    admission impl cap p b = .none ↔
      cap ≤ impl.maxBatch ∧ 1 ≤ p.length ∧ p.length ≤ impl.maxPayload ∧ (b.pkt = none ∨ b.pkt = some p) := by
  unfold admission
  split_ifs with hcap hempty hlong hpkt
  · exact iff_of_false (by simp) (by omega)
  · exact iff_of_false (by simp) (by omega)
  · exact iff_of_false (by simp) (by omega)
  · exact iff_of_false (by simp) (by tauto)
  · exact iff_of_true rfl ⟨by omega, by omega, by omega, by tauto⟩

/-- A block with its packet latched is healthy where its registers are in the packet's range and the packet was
admitted. -/
theorem Block.wf_iff_of_latched {impl : Impl} {st : EncoderState} {bk se : Nat} {pkt : Option Payload} {p : Payload}
    (hp : pkt = some p) :
    (⟨st, bk, se, pkt⟩ : Block).wf impl = true ↔
      se = 0 ∧ (1 ≤ p.length ∧ p.length ≤ impl.maxPayload) ∧
        (st = .data → bk < 8 * p.length) ∧ (st ≠ .data → bk = 0) := by
  subst hp
  cases st <;> simp [Block.wf] <;> tauto

theorem Block.initial_wf (impl : Impl) : Block.initial.wf impl = true := rfl

/-- After an admission the packet is latched and the block is healthy. -/
theorem Block.wf_latch {impl : Impl} {cap : Nat} {p : Payload} {b : Block} (hb : b.wf impl = true)
    (ha : admission impl cap p b = .none) : (b.latch p).pkt = some p ∧ (b.latch p).wf impl = true := by
  obtain ⟨-, hlen, hmax, hpkt⟩ := admission_eq_none_iff.1 ha
  obtain ⟨st, bk, se, pkt⟩ := b
  rcases hpkt with rfl | rfl
  · cases st <;> simp_all [Block.wf, Block.latch]
  · exact ⟨rfl, hb⟩

section Stages
variable {impl : Impl} {b : Block} {p : Payload} (prof : Profile) (out : List Symbol) (free : Nat)

/-- The Ending stage waits, or ends the packet. -/
theorem endingStage_blk_wf (hp : b.pkt = some p) (hb : b.wf impl = true) (hst : b.st = .ending) :
    (endingStage prof b out free).blk.wf impl = true := by
  obtain ⟨hse, -, -, hbk⟩ := (Block.wf_iff_of_latched hp).1 hb
  rw [endingStage_eq prof b out free hse]
  split
  · exact hb
  · simp [Block.wf, hse, hbk (by simp [hst])]

/-- The Data stage stays within the payload, goes to its end, or ends the packet. -/
theorem dataStage_blk_wf (hp : b.pkt = some p) (hb : b.wf impl = true) (hst : b.st = .data) :
    (dataStage prof p b out free).blk.wf impl = true := by
  obtain ⟨hse, hlen, hbk, -⟩ := (Block.wf_iff_of_latched hp).1 hb
  have hlt : b.bk < 8 * p.length := hbk hst
  rw [dataStage_eq prof p b out free hlt hse]
  split_ifs with hfull hdone
  · exact (Block.wf_iff_of_latched hp).2 ⟨hse, hlen, by simp, by simp⟩
  · exact (Block.wf_iff_of_latched hp).2 ⟨hse, hlen, fun _ => by omega, by simp⟩
  · simp [Block.wf, hse]

/-- The Leading stage waits, or goes on to the Data stage at the first bit. -/
theorem leadingStage_blk_wf (hp : b.pkt = some p) (hb : b.wf impl = true) (hst : b.st = .leading) :
    (leadingStage prof p b [] free).blk.wf impl = true := by
  obtain ⟨hse, hlen, -, hbk⟩ := (Block.wf_iff_of_latched hp).1 hb
  have hdata : ({ b with st := .data } : Block).wf impl = true :=
    (Block.wf_iff_of_latched hp).2 ⟨hse, hlen, fun _ => by rw [hbk (by simp [hst])]; omega, by simp⟩
  rw [leadingStage_eq prof p b free hst hse]
  split_ifs
  · exact hb
  · exact hdata
  · exact dataStage_blk_wf prof _ _ hp hdata rfl

/-- STEP's body keeps a healthy block healthy. -/
theorem stepBody_blk_wf (hp : b.pkt = some p) (hb : b.wf impl = true) :
    (stepBody prof p free b).blk.wf impl = true := by
  unfold stepBody
  split
  · next hst => exact leadingStage_blk_wf prof free hp hb hst
  · next hst => exact dataStage_blk_wf prof [] free hp hb hst
  · next hst => exact endingStage_blk_wf prof [] free hp hb hst

end Stages

/-- A STEP request keeps the block's invariant, admitted or not. -/
theorem stepRequest_keeps_blockInv {s t : State} {cap : Nat} {p : Payload} (hs : s.BlockInv)
    (h : stepRequest cap p s = .next t) : t.BlockInv := by
  obtain ⟨-, rfl⟩ | ⟨ha, blk, out, status, hbody, rfl⟩ := stepRequest_cases h
  · exact hs.of_blockView_eq rfl
  · obtain ⟨hp, hwf⟩ := Block.wf_latch hs.blk_wf ha
    have hblk := stepBody_blk_wf s.profile cap hp hwf
    rw [hbody] at hblk
    exact hs.of_blk_wf rfl hblk

/-! ### The other operations and the engine -/

theorem resetBlock_keeps_blockInv {s : State} (hs : s.BlockInv) : s.resetBlock.BlockInv :=
  hs.of_blk_wf rfl (Block.initial_wf s.impl)

/-- A construction computes the profile of the timebase it admitted; a failed one leaves the block alone. -/
theorem constructCall_keeps_blockInv {s : State} (hs : s.BlockInv) (pin : BitVec 32) (tb : Byte) :
    (s.constructCall pin tb).BlockInv := by
  obtain ⟨-, h⟩ | ⟨-, -, h⟩ | ⟨hok, -, h⟩ := constructCall_cases pin tb s <;> rw [h]
  · exact hs.of_blockView_eq rfl
  · exact hs.of_blockView_eq rfl
  · exact ⟨hs.impl_ok, hok, rfl, Block.initial_wf s.impl⟩

/-- Every instruction keeps the block's invariant. -/
theorem exec_keeps_blockInv {i : Instr} {s t : State} (hs : s.BlockInv) (h : exec i s = .next t) : t.BlockInv := by
  obtain ⟨-, hcall⟩ | ⟨pin, tb, -, rfl⟩ := exec_cases h
  · obtain ⟨cap, p, -, hstep⟩ | ⟨-, rfl⟩ | ⟨payload, -, rfl⟩ | ⟨f, -, rfl⟩ | ⟨-, rfl⟩ | ⟨-, rfl⟩ := hcall
    · exact stepRequest_keeps_blockInv hs hstep
    · split
      · exact hs.of_blockView_eq rfl
      · exact resetBlock_keeps_blockInv hs
    · exact hs.of_blockView_eq (send_blockView payload s)
    · exact hs.of_blockView_eq rfl
    · exact hs.of_blockView_eq (beginCall_blockView s)
    · exact hs.of_blockView_eq (endCall_blockView s)
  · exact constructCall_keeps_blockInv hs pin tb

/-- The engine's STEP, where it answers a next state: none is due, or the request answered one. -/
theorem engineInvoke_eq_next_cases {cap : Nat} {s t : State} (h : engineInvoke cap s = .next t) :
    (t = s ∧ ∀ p idle, s.tx ≠ some ⟨.packet p, .stepping, idle⟩) ∨
      ∃ p idle u, s.tx = some ⟨.packet p, .stepping, idle⟩ ∧ stepRequest (s.offer cap) p s = .next u ∧
        t = u.afterInvoke := by
  obtain ⟨hnone, htx⟩ | ⟨p, idle, htx, heq⟩ := engineInvoke_cases cap s
  · exact .inl ⟨(Host.Outcome.next.inj (hnone.symm.trans h)).symm, htx⟩
  · rw [heq] at h
    split at h
    · next u hu => exact .inr ⟨p, idle, u, htx, hu, (Host.Outcome.next.inj h).symm⟩
    · cases h
    · cases h

theorem engineInvoke_keeps_blockInv {cap : Nat} {s t : State} (hs : s.BlockInv) (h : engineInvoke cap s = .next t) :
    t.BlockInv := by
  obtain ⟨rfl, -⟩ | ⟨p, idle, u, -, hstep, rfl⟩ := engineInvoke_eq_next_cases h
  · exact hs
  · exact (stepRequest_keeps_blockInv hs hstep).of_blockView_eq (afterInvoke_blockView u)

/-- Settles O54: a step runs a request or the engine's STEP, or leaves the block and its configuration alone. -/
theorem stepKeepsBlockInv : Obligations.StepKeepsBlockInv := by
  intro s t hs h
  have hturn : s.afterTurn.BlockInv := hs.of_blockView_eq rfl
  obtain ⟨-, hhost⟩ | ⟨-, hengine⟩ := step_cases h
  · obtain ⟨-, w, -, rfl⟩ | ⟨-, -, rfl⟩ | ⟨-, i, rest, -, hexec⟩ := hhost
    · exact hturn.of_blockView_eq (resume_blockView w _)
    · exact hturn
    · exact exec_keeps_blockInv (s := s.afterTurn.consume rest) (hturn.of_blockView_eq rfl) hexec
  · obtain ⟨cap, -, hinvoke⟩ | ⟨-, rfl⟩ | ⟨-, rfl⟩ | ⟨-, rfl⟩ | ⟨-, rfl⟩ := hengine
    · exact engineInvoke_keeps_blockInv hturn hinvoke
    · exact hturn.of_blockView_eq (sendSegment_blockView _)
    · exact hturn.of_blockView_eq (settle_blockView _)
    · exact hturn.of_blockView_eq (doneEvent_blockView _)
    · exact hturn.of_blockView_eq (txFail_blockView _)

/-- Settles O53: the default timebase and ratios are admitted, and the two open bounds lie above their least values. -/
theorem resetBlockInv : Obligations.ResetBlockInv where
  impl_ok := by simp [State.reset, implOk, Config.maxBatch, Config.maxPayload]
  config_ok := by decide
  profile_fixed := rfl
  blk_wf := Block.initial_wf _

/-! ### What the agreement of host and engine rests on -/

/-- What the engine transmits, if anything. -/
def State.txSource (s : State) : Option TxSource := s.tx.map Transmission.source

theorem txSource_eq_none_iff {s : State} : s.txSource = none ↔ s.tx = none := by simp [State.txSource]

theorem txSource_eq_some_iff {s : State} {source : TxSource} :
    s.txSource = some source ↔ ∃ phase idle, s.tx = some ⟨source, phase, idle⟩ := by
  constructor
  · intro h
    obtain ⟨⟨_, phase, idle⟩, htx, rfl⟩ := Option.map_eq_some_iff.1 h
    exact ⟨phase, idle, htx⟩
  · rintro ⟨phase, idle, htx⟩
    simp [State.txSource, htx]

theorem packetTx_iff {s : State} : s.packetTx = true ↔ ∃ p, s.txSource = some (.packet p) := by
  unfold State.packetTx
  split
  · next p phase idle htx => simp [State.txSource, htx]
  · next hno =>
    refine iff_of_false (by simp) ?_
    rintro ⟨p, hp⟩
    obtain ⟨phase, idle, htx⟩ := txSource_eq_some_iff.1 hp
    exact hno p phase idle htx

/-- The part of the state that `State.HostInv` speaks of: of a transmission, no more than its source. -/
def State.hostView (s : State) : Bool × Option TxSource × Option HostWait × Bool × Level :=
  (s.inFlight, s.txSource, s.wait, s.begun, s.idleLevel)

/-- The agreement of host and engine, said of the view. -/
theorem hostInv_iff {s : State} :
    s.HostInv ↔
      (s.inFlight = true ↔ ∃ p, s.txSource = some (.packet p)) ∧
      (s.txSource ≠ none → s.begun = true) ∧ (s.wait ≠ none → s.begun = true) ∧
      (∀ p, s.wait = some (.sendRaw p) → p ≠ []) ∧ (∀ p, s.txSource = some (.packet p) → p ≠ []) ∧
      (s.wait = some .dummyDone → s.inFlight = false ∧ s.idleLevel = .low) ∧
      (s.txSource = some .dummy → s.wait = some .dummyDone) := by
  constructor
  · rintro ⟨hflight, htx, hwait, hheld, hsent, hending, hdummy⟩
    refine ⟨by rw [hflight, packetTx_iff], by rwa [Ne, txSource_eq_none_iff], hwait, hheld, ?_, hending, ?_⟩
    · intro p hp
      obtain ⟨phase, idle, h⟩ := txSource_eq_some_iff.1 hp
      exact hsent p phase idle h
    · intro hd
      obtain ⟨phase, idle, h⟩ := txSource_eq_some_iff.1 hd
      exact hdummy phase idle h
  · rintro ⟨hflight, htx, hwait, hheld, hsent, hending, hdummy⟩
    refine ⟨Bool.eq_iff_iff.2 (hflight.trans packetTx_iff.symm), by rwa [Ne, txSource_eq_none_iff] at htx, hwait, hheld,
      ?_, hending, ?_⟩
    · exact fun p phase idle h => hsent p (txSource_eq_some_iff.2 ⟨phase, idle, h⟩)
    · exact fun phase idle h => hdummy (txSource_eq_some_iff.2 ⟨phase, idle, h⟩)

/-- The agreement of host and engine depends on nothing but its view. -/
theorem State.HostInv.of_hostView_eq {s t : State} (hs : s.HostInv) (hv : t.hostView = s.hostView) : t.HostInv := by
  obtain ⟨hflight, htx, hwait, hbegun, hidle⟩ :
      t.inFlight = s.inFlight ∧ t.txSource = s.txSource ∧ t.wait = s.wait ∧ t.begun = s.begun ∧
        t.idleLevel = s.idleLevel := by
    simpa [State.hostView] using hv
  rw [hostInv_iff, hflight, htx, hwait, hbegun, hidle]
  exact hostInv_iff.1 hs

theorem stepRequest_hostView {s t : State} {cap : Nat} {p : Payload} (h : stepRequest cap p s = .next t) :
    t.hostView = s.hostView := by
  obtain ⟨-, rfl⟩ | ⟨-, blk, out, status, -, rfl⟩ := stepRequest_cases h <;> rfl

@[simp] theorem putPhase_hostView (phase : TxPhase) (s : State) : (s.putPhase phase).hostView = s.hostView := by
  simp [State.hostView, State.txSource, Function.comp_def]

@[simp] theorem afterInvoke_hostView (s : State) : s.afterInvoke.hostView = s.hostView := by
  obtain h | ⟨-, -, h⟩ := afterInvoke_cases s <;> simp [h]

@[simp] theorem sendSegment_hostView (s : State) : s.sendSegment.hostView = s.hostView := by
  obtain h | ⟨seg, rest, -, h⟩ := sendSegment_cases s <;> simp [State.hostView, State.txSource, h]

@[simp] theorem settle_hostView (s : State) : s.settle.hostView = s.hostView := by
  obtain h | ⟨source, idle, htx, -, h⟩ := settle_cases s
  · rw [h]
  · simp [State.hostView, State.txSource, htx, h]

@[simp] theorem txFail_hostView (s : State) : s.txFail.hostView = s.hostView := by
  obtain h | ⟨-, h⟩ := txFail_cases s <;> simp [State.hostView, State.txSource, h]

/-! ### The operations that change the view -/

/-- With no transmission, nothing in flight and no held call, host and engine agree. -/
theorem State.HostInv.of_quiet {s : State} (hflight : s.inFlight = false) (htx : s.tx = none) (hwait : s.wait = none) :
    s.HostInv :=
  hostInv_iff.2 (by simp [hflight, State.txSource, htx, hwait])

/-- A packet that is not empty starts while begun. -/
theorem startPacket_hostInv {s : State} {p : Payload} (hbegun : s.begun = true) (hp : p ≠ []) :
    (s.startPacket p).HostInv :=
  hostInv_iff.2 (by simp [State.txSource, hbegun, hp])

/-- end()'s dummy transmission starts while begun, with nothing in flight. -/
theorem startDummy_hostInv {s : State} (hbegun : s.begun = true) (hflight : s.inFlight = false) :
    s.startDummy.HostInv :=
  hostInv_iff.2 (by simp [State.txSource, hbegun, hflight])

/-- sendRaw holds while begun, with a packet in flight. -/
theorem hold_sendRaw_keeps_hostInv {s : State} {p : Payload} (hs : s.HostInv) (hbegun : s.begun = true)
    (hflight : s.inFlight = true) (hp : p ≠ []) : (s.hold (.sendRaw p)).HostInv := by
  obtain ⟨hpacket, -, -, -, hsent, -, -⟩ := hostInv_iff.1 hs
  obtain ⟨q, hq⟩ := hpacket.1 hflight
  have hsource : (s.hold (.sendRaw p)).txSource = some (.packet q) := hq
  exact hostInv_iff.2 (by simp [hsource, hbegun, hflight, hp, hsent q hq])

theorem State.HostInv.inFlight_of_no_packet {s : State} (hs : s.HostInv)
    (h : ∀ p, s.txSource ≠ some (.packet p)) : s.inFlight = false := by
  rw [← Bool.not_eq_true, (hostInv_iff.1 hs).1]
  exact fun ⟨p, hp⟩ => h p hp

/-- Before the output is enabled no call holds and nothing is sent. -/
theorem enabled_keeps_hostInv {s : State} (hs : s.HostInv) (hbegun : s.begun = false) : s.enabled.HostInv := by
  have htx : s.tx = none := by
    by_contra h
    simp [hs.tx_begun h] at hbegun
  have hwait : s.wait = none := by
    by_contra h
    simp [hs.wait_begun h] at hbegun
  exact .of_quiet (hs.inFlight_of_no_packet (by simp [State.txSource, htx])) htx hwait

theorem disabled_keeps_hostInv {s : State} (hs : s.HostInv) (htx : s.tx = none) : s.disabled.HostInv :=
  .of_quiet (hs.inFlight_of_no_packet (by simp [State.txSource, htx])) htx rfl

theorem send_keeps_hostInv {s : State} (hs : s.HostInv) (payload : Option Payload) : (s.send payload).HostInv := by
  obtain h | ⟨p, -, hp, hbegun, ⟨hflight, h⟩ | ⟨-, h⟩⟩ := send_cases payload s <;> rw [h]
  · exact hs
  · exact hold_sendRaw_keeps_hostInv hs hbegun hflight hp
  · exact startPacket_hostInv hbegun hp

theorem resume_keeps_hostInv {s : State} {w : HostWait} (hs : s.HostInv) (hw : s.wait = some w) :
    (s.resume w).HostInv := by
  obtain h | ⟨p, rfl, -, h⟩ | ⟨-, htx, ⟨-, h⟩ | ⟨-, h⟩⟩ := resume_cases w s <;> rw [h]
  · exact hs
  · exact startPacket_hostInv (hs.wait_begun (by simp [hw])) (hs.held_payload p hw)
  · exact hs.of_hostView_eq rfl
  · exact disabled_keeps_hostInv (s := s.afterFail) (hs.of_hostView_eq rfl) htx

theorem beginCall_keeps_hostInv {s : State} (hs : s.HostInv) : s.beginCall.HostInv := by
  obtain h | ⟨-, -, h⟩ | ⟨hbegun, -, h⟩ := beginCall_cases s <;> rw [h]
  · exact hs
  · exact hs.of_hostView_eq rfl
  · exact enabled_keeps_hostInv (s := s.afterFail) (hs.of_hostView_eq rfl) hbegun

theorem endCall_keeps_hostInv {s : State} (hs : s.HostInv) : s.endCall.HostInv := by
  obtain h | ⟨-, -, h⟩ | ⟨hbegun, hflight, h⟩ := endCall_cases s <;> rw [h]
  · exact hs
  · exact hs.of_hostView_eq rfl
  · exact startDummy_hostInv hbegun hflight

theorem constructCall_keeps_hostInv {s : State} (hs : s.HostInv) (pin : BitVec 32) (tb : Byte) :
    (s.constructCall pin tb).HostInv := by
  obtain ⟨-, h⟩ | ⟨-, -, h⟩ | ⟨-, -, h⟩ := constructCall_cases pin tb s <;> rw [h]
  · exact hs.of_hostView_eq rfl
  · exact hs.of_hostView_eq rfl
  · exact .of_quiet rfl rfl rfl

/-- A transmission and its flight end together; a held call stays as it was. -/
theorem transmission_end_keeps_hostInv {s : State} (hs : s.HostInv) :
    ({ s with inFlight := false, tx := none } : State).HostInv where
  in_flight := rfl
  tx_begun := by simp
  wait_begun := hs.wait_begun
  held_payload := hs.held_payload
  sent_payload := by simp
  ending := fun hwait => ⟨rfl, (hs.ending hwait).2⟩
  dummy_held := by simp

/-- The done event ends a packet's flight with its transmission; a dummy transmission has no flight to end. -/
theorem doneEvent_keeps_hostInv {s : State} (hs : s.HostInv) : s.doneEvent.HostInv := by
  obtain h | ⟨p, idle, -, h⟩ | ⟨idle, htx, h⟩ := doneEvent_cases s <;> rw [h]
  · exact hs
  · exact transmission_end_keeps_hostInv hs
  · have hflight : s.inFlight = false := hs.inFlight_of_no_packet (by simp [State.txSource, htx])
    exact (transmission_end_keeps_hostInv hs).of_hostView_eq (by simp [State.hostView, State.txSource, hflight])

/-- Every instruction keeps the agreement of host and engine. -/
theorem exec_keeps_hostInv {i : Instr} {s t : State} (hs : s.HostInv) (h : exec i s = .next t) : t.HostInv := by
  obtain ⟨-, hcall⟩ | ⟨pin, tb, -, rfl⟩ := exec_cases h
  · obtain ⟨cap, p, -, hstep⟩ | ⟨-, rfl⟩ | ⟨payload, -, rfl⟩ | ⟨f, -, rfl⟩ | ⟨-, rfl⟩ | ⟨-, rfl⟩ := hcall
    · exact hs.of_hostView_eq (stepRequest_hostView hstep)
    · split <;> exact hs.of_hostView_eq rfl
    · exact send_keeps_hostInv hs payload
    · exact hs.of_hostView_eq rfl
    · exact beginCall_keeps_hostInv hs
    · exact endCall_keeps_hostInv hs
  · exact constructCall_keeps_hostInv hs pin tb

theorem engineInvoke_hostView {cap : Nat} {s t : State} (h : engineInvoke cap s = .next t) :
    t.hostView = s.hostView := by
  obtain ⟨rfl, -⟩ | ⟨p, idle, u, -, hstep, rfl⟩ := engineInvoke_eq_next_cases h
  · rfl
  · rw [afterInvoke_hostView, stepRequest_hostView hstep]

/-- Settles O57: of the engine's moves only the done event changes what the agreement rests on, and each call of the
host, held or new, keeps it. -/
theorem stepKeepsHostInv : Obligations.StepKeepsHostInv := by
  intro s t hs h
  have hturn : s.afterTurn.HostInv := hs.of_hostView_eq rfl
  obtain ⟨-, hhost⟩ | ⟨-, hengine⟩ := step_cases h
  · obtain ⟨-, w, hw, rfl⟩ | ⟨-, -, rfl⟩ | ⟨-, i, rest, -, hexec⟩ := hhost
    · exact resume_keeps_hostInv hturn hw
    · exact hturn
    · exact exec_keeps_hostInv (s := s.afterTurn.consume rest) (hturn.of_hostView_eq rfl) hexec
  · obtain ⟨cap, -, hinvoke⟩ | ⟨-, rfl⟩ | ⟨-, rfl⟩ | ⟨-, rfl⟩ | ⟨-, rfl⟩ := hengine
    · exact hturn.of_hostView_eq (engineInvoke_hostView hinvoke)
    · exact hturn.of_hostView_eq (sendSegment_hostView _)
    · exact hturn.of_hostView_eq (settle_hostView _)
    · exact doneEvent_keeps_hostInv hturn
    · exact hturn.of_hostView_eq (txFail_hostView _)

/-- Settles O56: right after reset nothing is in flight and no call holds. -/
theorem resetHostInv : Obligations.ResetHostInv := .of_quiet rfl rfl rfl

/-! ### The controller's invariant at rest -/

/-- With its block at rest and no transmission, the controller's invariant holds. -/
theorem State.DrivenInv.of_quiet {s : State} (hblk : s.blk = Block.initial) (htx : s.tx = none) : s.DrivenInv where
  at_rest := fun _ => hblk
  latched := by simp [htx]
  idled := by simp [htx]

/-- Settles O58: right after reset the block is at rest and nothing is sent. -/
theorem resetDrivenInv : Obligations.ResetDrivenInv := .of_quiet rfl rfl

/-! ### The opcode constants -/

/-- The opcode constants where FLAGS is 0 (spec/10_state.md R36). -/
theorem opcodes_of_flags_zero {s : State} (h : s.flags = 0) :
    s.opcSet = 0x30#8 ∧ s.opcFill = 0x18#8 ∧ s.opcRand = 0x48#8 := by
  rw [State.opcSet, State.opcFill, State.opcRand, h]
  decide

/-- A construction that raised no fault left FLAGS at 0. -/
theorem constructCall_flags {s : State} {pin : BitVec 32} {tb : Byte} (h : (s.constructCall pin tb).fault = .none) :
    (s.constructCall pin tb).flags = 0 := by
  obtain ⟨-, hc⟩ | ⟨-, -, hc⟩ | ⟨-, -, hc⟩ := constructCall_cases pin tb s <;> rw [hc] at h ⊢
  · simp at h
  · simp at h
  · rfl

/-- Settles O4: an opcode byte's two fields read back, and a construction clears FLAGS. -/
theorem opcodeConstantsFollowFlags : Obligations.OpcodeConstantsFollowFlags := by
  constructor
  · intro s
    exact ⟨opcodeFields_opcodeByte kindSet s.flags, opcodeFields_opcodeByte kindFill s.flags,
      opcodeFields_opcodeByte kindRand s.flags⟩
  · intro pin tb s t h hfault
    obtain rfl : s.constructCall pin tb = t := Host.Outcome.next.inj h
    exact opcodes_of_flags_zero (constructCall_flags hfault)

end Sys2Proof.Machine

/-! PROOFS. The controller's duties: while the engine's STEPs are the only STEPs its invariant is kept and no STEP breaks a
caller's duty; a packet's symbols read back to its payload; and the wait of a held sendRaw. -/

namespace Sys2Proof.Machine

/-! ### What an admitted STEP leaves of its packet -/

/-- STEP_body ended the packet in the construction state, or paused with the payload still latched
(spec/43_waveform_encoder.md R155, R157). -/
def BodyResult.EndsOrHolds (p : Payload) (r : BodyResult) : Prop :=
  (r.status = some .complete ∧ r.blk = Block.initial) ∨ (r.status = some .paused ∧ r.blk.pkt = some p)

section Stages
variable {impl : Impl} {b : Block} {p : Payload} (prof : Profile) (out : List Symbol) (free : Nat)

theorem endingStage_endsOrHolds (hp : b.pkt = some p) (hb : b.wf impl = true) (hst : b.st = .ending) :
    (endingStage prof b out free).EndsOrHolds p := by
  obtain ⟨hse, -, -, hbk⟩ := (Block.wf_iff_of_latched hp).1 hb
  rw [endingStage_eq prof b out free hse]
  split
  · exact .inr ⟨rfl, hp⟩
  · exact .inl ⟨rfl, by simp [Block.initial, hse, hbk (by simp [hst])]⟩

theorem dataStage_endsOrHolds (hp : b.pkt = some p) (hb : b.wf impl = true) (hst : b.st = .data) :
    (dataStage prof p b out free).EndsOrHolds p := by
  obtain ⟨hse, -, hbk, -⟩ := (Block.wf_iff_of_latched hp).1 hb
  rw [dataStage_eq prof p b out free (hbk hst) hse]
  split_ifs
  · exact .inr ⟨rfl, hp⟩
  · exact .inr ⟨rfl, hp⟩
  · exact .inl ⟨rfl, by simp [Block.initial, hse]⟩

theorem leadingStage_endsOrHolds (hp : b.pkt = some p) (hb : b.wf impl = true) (hst : b.st = .leading) :
    (leadingStage prof p b [] free).EndsOrHolds p := by
  obtain ⟨hse, hlen, -, hbk⟩ := (Block.wf_iff_of_latched hp).1 hb
  have hdata : ({ b with st := .data } : Block).wf impl = true :=
    (Block.wf_iff_of_latched hp).2 ⟨hse, hlen, fun _ => by rw [hbk (by simp [hst])]; omega, by simp⟩
  rw [leadingStage_eq prof p b free hst hse]
  split_ifs
  · exact .inr ⟨rfl, hp⟩
  · exact .inr ⟨rfl, hp⟩
  · exact dataStage_endsOrHolds prof _ _ hp hdata rfl

theorem stepBody_endsOrHolds (hp : b.pkt = some p) (hb : b.wf impl = true) :
    (stepBody prof p free b).EndsOrHolds p := by
  unfold stepBody
  split
  · next hst => exact leadingStage_endsOrHolds prof free hp hb hst
  · next hst => exact dataStage_endsOrHolds prof [] free hp hb hst
  · next hst => exact endingStage_endsOrHolds prof [] free hp hb hst

end Stages

/-- A STEP request on a healthy block raises a fault, completes the packet, or keeps its payload latched. -/
theorem stepRequest_endsOrHolds {s t : State} {cap : Nat} {p : Payload} (hs : s.BlockInv)
    (h : stepRequest cap p s = .next t) :
    (admission s.impl cap p s.blk ≠ .none ∧ t = s.raise (admission s.impl cap p s.blk)) ∨
      (∃ out, t = s.commit Block.initial out .complete) ∨
      ∃ blk out, blk.pkt = some p ∧ t = s.commit blk out .paused := by
  obtain hraise | ⟨ha, blk, out, status, hbody, rfl⟩ := stepRequest_cases h
  · exact .inl hraise
  · obtain ⟨hp, hwf⟩ := Block.wf_latch hs.blk_wf ha
    have hres := stepBody_endsOrHolds s.profile cap hp hwf
    rw [hbody] at hres
    obtain ⟨hstatus, rfl⟩ | ⟨hstatus, hpkt⟩ := hres
    · obtain rfl := Option.some.inj hstatus
      exact .inr (.inl ⟨out, rfl⟩)
    · obtain rfl := Option.some.inj hstatus
      exact .inr (.inr ⟨blk, out, hpkt, rfl⟩)

/-! ### The engine after its STEP -/

theorem afterInvoke_of_fault {s : State} (h : s.fault ≠ .none) : s.afterInvoke = s := by
  simp [State.afterInvoke, h]

theorem afterInvoke_of_paused (blk : Block) (out : List Symbol) (s : State) :
    (s.commit blk out .paused).afterInvoke = s.commit blk out .paused := by
  simp [State.afterInvoke]

theorem afterInvoke_of_complete {s : State} (h : s.fault = .none) (blk : Block) (out : List Symbol) :
    (s.commit blk out .complete).afterInvoke = (s.commit blk out .complete).putPhase .draining := by
  simp [State.afterInvoke, h]

/-! ### What the controller's invariant rests on -/

/-- The part of the state that `State.DrivenInv` speaks of. -/
def State.drivenView (s : State) : Block × Option Transmission × Level × List Segment :=
  (s.blk, s.tx, s.line, s.buf)

/-- The controller's invariant depends on nothing but its view. -/
theorem State.DrivenInv.of_drivenView_eq {s t : State} (hs : s.DrivenInv) (hv : t.drivenView = s.drivenView) :
    t.DrivenInv := by
  obtain ⟨hblk, htx, hline, hbuf⟩ : t.blk = s.blk ∧ t.tx = s.tx ∧ t.line = s.line ∧ t.buf = s.buf := by
    simpa [State.drivenView] using hv
  refine ⟨?_, ?_, ?_⟩
  · rw [htx, hblk]; exact hs.at_rest
  · rw [htx, hblk]; exact hs.latched
  · rw [htx, hline, hbuf]; exact hs.idled

/-- With its block at rest, and nothing idle, the controller's invariant holds. -/
theorem State.DrivenInv.of_atRest {s : State} (hblk : s.blk = Block.initial)
    (hidle : ∀ source idle, s.tx ≠ some ⟨source, .idled, idle⟩) : s.DrivenInv where
  at_rest := fun _ => hblk
  latched := fun _ _ _ => .inl (by rw [hblk]; rfl)
  idled := fun source idle h => absurd h (hidle source idle)

/-- With no packet in flight the block is at rest (spec/20_memory.md R59). -/
theorem State.DrivenInv.atRest_of_not_inFlight {s : State} (hs : s.DrivenInv) (hhost : s.HostInv)
    (hflight : s.inFlight = false) : s.blk = Block.initial := by
  refine hs.at_rest fun p idle htx => ?_
  simp [hhost.in_flight, State.packetTx, htx] at hflight

/-! ### Each operation keeps the controller's invariant -/

theorem startPacket_drivenInv {s : State} {p : Payload} (hblk : s.blk = Block.initial) : (s.startPacket p).DrivenInv :=
  .of_atRest hblk (by simp)

theorem send_keeps_drivenInv {s : State} (hs : s.DrivenInv) (hhost : s.HostInv) (payload : Option Payload) :
    (s.send payload).DrivenInv := by
  obtain h | ⟨p, -, -, -, ⟨-, h⟩ | ⟨hflight, h⟩⟩ := send_cases payload s <;> rw [h]
  · exact hs
  · exact hs.of_drivenView_eq rfl
  · exact startPacket_drivenInv (hs.atRest_of_not_inFlight hhost hflight)

theorem resume_keeps_drivenInv {s : State} (hs : s.DrivenInv) (hhost : s.HostInv) (w : HostWait) :
    (s.resume w).DrivenInv := by
  obtain h | ⟨p, -, hflight, h⟩ | ⟨-, -, ⟨-, h⟩ | ⟨-, h⟩⟩ := resume_cases w s <;> rw [h]
  · exact hs
  · exact startPacket_drivenInv (hs.atRest_of_not_inFlight hhost hflight)
  · exact hs.of_drivenView_eq rfl
  · exact hs.of_drivenView_eq rfl

theorem beginCall_drivenView (s : State) : s.beginCall.drivenView = s.drivenView := by
  obtain h | ⟨-, -, h⟩ | ⟨-, -, h⟩ := beginCall_cases s <;> simp [State.drivenView, h]

theorem endCall_keeps_drivenInv {s : State} (hs : s.DrivenInv) (hhost : s.HostInv) : s.endCall.DrivenInv := by
  obtain h | ⟨-, -, h⟩ | ⟨-, hflight, h⟩ := endCall_cases s <;> rw [h]
  · exact hs
  · exact hs.of_drivenView_eq rfl
  · exact .of_atRest (hs.atRest_of_not_inFlight hhost hflight) (by simp)

theorem constructCall_keeps_drivenInv {s : State} (hs : s.DrivenInv) (pin : BitVec 32) (tb : Byte) :
    (s.constructCall pin tb).DrivenInv := by
  obtain ⟨-, h⟩ | ⟨-, -, h⟩ | ⟨-, -, h⟩ := constructCall_cases pin tb s <;> rw [h]
  · exact hs.of_drivenView_eq rfl
  · exact hs.of_drivenView_eq rfl
  · exact .of_quiet rfl rfl

/-- RESET puts the block where, with nothing in flight, the controller has it already. -/
theorem resetBlock_keeps_drivenInv {s : State} (hs : s.DrivenInv) : s.resetBlock.DrivenInv where
  at_rest := fun _ => rfl
  latched := fun _ _ _ => .inl rfl
  idled := hs.idled

/-- Every instruction but a STEP keeps the controller's invariant; from a fault a STEP does not run. -/
theorem exec_keeps_drivenInv {i : Instr} {s t : State} (hs : s.DrivenInv) (hhost : s.HostInv)
    (hstep : s.fault = .none → ∀ cap p, i ≠ .step cap p) (h : exec i s = .next t) : t.DrivenInv := by
  obtain ⟨hfault, hcall⟩ | ⟨pin, tb, -, rfl⟩ := exec_cases h
  · obtain ⟨cap, p, hi, -⟩ | ⟨-, rfl⟩ | ⟨payload, -, rfl⟩ | ⟨f, -, rfl⟩ | ⟨-, rfl⟩ | ⟨-, rfl⟩ := hcall
    · exact absurd hi (hstep hfault cap p)
    · split
      · exact hs.of_drivenView_eq rfl
      · exact resetBlock_keeps_drivenInv hs
    · exact send_keeps_drivenInv hs hhost payload
    · exact hs.of_drivenView_eq rfl
    · exact hs.of_drivenView_eq (beginCall_drivenView s)
    · exact endCall_keeps_drivenInv hs hhost
  · exact constructCall_keeps_drivenInv hs pin tb

/-- The engine's STEP completes the packet, after which the block is at rest, or leaves the packet's payload latched. -/
theorem engineInvoke_keeps_drivenInv {cap : Nat} {s t : State} (hs : s.DrivenInv) (hblock : s.BlockInv)
    (hfault : s.fault = .none) (h : engineInvoke cap s = .next t) : t.DrivenInv := by
  obtain ⟨rfl, -⟩ | ⟨p, idle, u, htx, hreq, rfl⟩ := engineInvoke_eq_next_cases h
  · exact hs
  · obtain ⟨hadm, rfl⟩ | ⟨out, rfl⟩ | ⟨blk, out, hpkt, rfl⟩ := stepRequest_endsOrHolds hblock hreq
    · rw [afterInvoke_of_fault (by simpa using hadm)]
      exact hs.of_drivenView_eq rfl
    · rw [afterInvoke_of_complete hfault]
      exact .of_atRest rfl (by simp [htx])
    · rw [afterInvoke_of_paused]
      refine ⟨fun hno => absurd htx (hno p idle), fun q idle' hq => ?_, by simp [htx]⟩
      obtain ⟨rfl, -⟩ : p = q ∧ idle = idle' := by simpa [htx] using hq
      exact .inr hpkt

/-- A segment is sent only before the line has settled. -/
theorem sendSegment_keeps_drivenInv {s : State} (hs : s.DrivenInv) : s.sendSegment.DrivenInv := by
  obtain h | ⟨seg, rest, hbuf, h⟩ := sendSegment_cases s <;> rw [h]
  · exact hs
  · refine ⟨hs.at_rest, hs.latched, fun source idle htx => ?_⟩
    simp [(hs.idled source idle htx).2] at hbuf

/-- The line settles at the idle level, with nothing left to send. -/
theorem settle_keeps_drivenInv {s : State} (hs : s.DrivenInv) : s.settle.DrivenInv := by
  obtain h | ⟨source, idle, htx, hbuf, h⟩ := settle_cases s <;> rw [h]
  · exact hs
  · refine ⟨fun _ => hs.at_rest (by simp [htx]), by simp, fun source' idle' h' => ?_⟩
    obtain ⟨-, rfl⟩ : source = source' ∧ idle = idle' := by simpa using h'
    exact ⟨rfl, hbuf⟩

/-- The done event comes after the packet's last STEP. -/
theorem doneEvent_keeps_drivenInv {s : State} (hs : s.DrivenInv) : s.doneEvent.DrivenInv := by
  obtain h | ⟨p, idle, htx, h⟩ | ⟨idle, htx, h⟩ := doneEvent_cases s <;> rw [h]
  · exact hs
  · exact .of_quiet (hs.at_rest (by simp [htx])) rfl
  · exact .of_quiet (hs.at_rest (by simp [htx])) rfl

theorem txFail_drivenView (s : State) : s.txFail.drivenView = s.drivenView := by
  obtain h | ⟨-, h⟩ := txFail_cases s <;> simp [State.drivenView, h]

/-! ### The step -/

/-- Where no STEP of the host's own is due, the request the host reads from no fault is another. -/
theorem request_ne_step {s : State} {i : Instr} {rest : List Byte} (hdirect : s.directStep = false)
    (hturn : s.nextTurn = .host) (hwait : s.fault ≠ .none ∨ s.wait = none) (hdec : decode s.inbox = .ok (i, rest))
    (hfault : s.fault = .none) (cap : Nat) (p : Payload) : i ≠ .step cap p := by
  rintro rfl
  simp [State.directStep, hturn, hwait.resolve_left (not_not.2 hfault), hdec] at hdirect

/-- Settles O59: a packet starts from a block at rest, stays latched until its Complete, and settles with nothing left to
send. -/
theorem stepKeepsDrivenInv : Obligations.StepKeepsDrivenInv := by
  intro s t hblock hhost hs hdirect h
  have hturn : s.afterTurn.DrivenInv := hs.of_drivenView_eq rfl
  have hturnHost : s.afterTurn.HostInv := hhost.of_hostView_eq rfl
  obtain ⟨hturnOf, hcall⟩ | ⟨hfault, hengine⟩ := step_cases h
  · obtain ⟨-, w, -, rfl⟩ | ⟨-, -, rfl⟩ | ⟨hwait, i, rest, hdec, hexec⟩ := hcall
    · exact resume_keeps_drivenInv hturn hturnHost w
    · exact hturn
    · exact exec_keeps_drivenInv (s := s.afterTurn.consume rest) (hturn.of_drivenView_eq rfl)
        (hturnHost.of_hostView_eq rfl) (request_ne_step (s := s) hdirect hturnOf hwait hdec) hexec
  · obtain ⟨cap, -, hinvoke⟩ | ⟨-, rfl⟩ | ⟨-, rfl⟩ | ⟨-, rfl⟩ | ⟨-, rfl⟩ := hengine
    · exact engineInvoke_keeps_drivenInv hturn (hblock.of_blockView_eq rfl) hfault hinvoke
    · exact sendSegment_keeps_drivenInv hturn
    · exact settle_keeps_drivenInv hturn
    · exact doneEvent_keeps_drivenInv hturn
    · exact hturn.of_drivenView_eq (txFail_drivenView _)

/-! ### The caller's duties -/

/-- A fault code other than the three a STEP raises where its caller broke a duty (spec/20_memory.md R63, R65). -/
abbrev FaultCode.KeepsDuties (code : FaultCode) : Prop :=
  code ≠ .capOutOfRange ∧ code ≠ .emptyPayload ∧ code ≠ .payloadChanged

/-- A STEP within the bound, with its packet's own payload, fails no check but that of the payload's length. -/
theorem admission_keepsDuties {impl : Impl} {cap : Nat} {p : Payload} {b : Block} (hcap : cap ≤ impl.maxBatch)
    (hp : p ≠ []) (hpkt : b.pkt = none ∨ b.pkt = some p) : (admission impl cap p b).KeepsDuties := by
  unfold admission
  rw [if_neg (Nat.not_lt.2 hcap), if_neg (by simpa using hp)]
  split_ifs with hlong hchanged
  · decide
  · exact absurd hpkt (by tauto)
  · decide

@[simp] theorem send_fault (payload : Option Payload) (s : State) : (s.send payload).fault = s.fault := by
  obtain h | ⟨p, -, -, -, ⟨-, h⟩ | ⟨-, h⟩⟩ := send_cases payload s <;> simp [h]

@[simp] theorem afterInvoke_fault (s : State) : s.afterInvoke.fault = s.fault := by
  obtain h | ⟨-, -, h⟩ := afterInvoke_cases s <;> simp [h]

@[simp] theorem sendSegment_fault (s : State) : s.sendSegment.fault = s.fault := by
  obtain h | ⟨seg, rest, -, h⟩ := sendSegment_cases s <;> simp [h]

@[simp] theorem settle_fault (s : State) : s.settle.fault = s.fault := by
  obtain h | ⟨source, idle, -, -, h⟩ := settle_cases s <;> simp [h]

@[simp] theorem doneEvent_fault (s : State) : s.doneEvent.fault = s.fault := by
  obtain h | ⟨p, idle, -, h⟩ | ⟨idle, -, h⟩ := doneEvent_cases s <;> simp [h]

section Duties
variable {s t : State}

theorem raise_keepsDuties {code : FaultCode} (hcode : code.KeepsDuties) : (s.raise code).fault.KeepsDuties := hcode

theorem resume_keepsDuties (hs : s.fault.KeepsDuties) (w : HostWait) : (s.resume w).fault.KeepsDuties := by
  obtain h | ⟨p, -, -, h⟩ | ⟨-, -, ⟨-, h⟩ | ⟨-, h⟩⟩ := resume_cases w s <;> rw [h]
  · exact hs
  · exact hs
  · exact raise_keepsDuties (by decide)
  · exact hs

theorem beginCall_keepsDuties (hs : s.fault.KeepsDuties) : s.beginCall.fault.KeepsDuties := by
  obtain h | ⟨-, -, h⟩ | ⟨-, -, h⟩ := beginCall_cases s <;> rw [h]
  · exact hs
  · exact raise_keepsDuties (by decide)
  · exact hs

theorem endCall_keepsDuties (hs : s.fault.KeepsDuties) : s.endCall.fault.KeepsDuties := by
  obtain h | ⟨-, -, h⟩ | ⟨-, -, h⟩ := endCall_cases s <;> rw [h]
  · exact hs
  · exact raise_keepsDuties (by decide)
  · exact hs

theorem constructCall_keepsDuties (pin : BitVec 32) (tb : Byte) : (s.constructCall pin tb).fault.KeepsDuties := by
  obtain ⟨-, h⟩ | ⟨-, -, h⟩ | ⟨-, -, h⟩ := constructCall_cases pin tb s <;> rw [h]
  · exact raise_keepsDuties (by decide)
  · exact raise_keepsDuties (by decide)
  · rw [fresh_fault]; decide

theorem txFail_keepsDuties (hs : s.fault.KeepsDuties) : s.txFail.fault.KeepsDuties := by
  obtain h | ⟨-, h⟩ := txFail_cases s <;> rw [h]
  · exact hs
  · exact raise_keepsDuties (by decide)

/-- No instruction but a STEP raises a STEP's faults. -/
theorem exec_keepsDuties {i : Instr} (hs : s.fault.KeepsDuties) (hstep : ∀ cap p, i ≠ .step cap p)
    (h : exec i s = .next t) : t.fault.KeepsDuties := by
  obtain ⟨-, hcall⟩ | ⟨pin, tb, -, rfl⟩ := exec_cases h
  · obtain ⟨cap, p, hi, -⟩ | ⟨-, rfl⟩ | ⟨payload, -, rfl⟩ | ⟨f, -, rfl⟩ | ⟨-, rfl⟩ | ⟨-, rfl⟩ := hcall
    · exact absurd hi (hstep cap p)
    · split
      · exact raise_keepsDuties (by decide)
      · exact hs
    · rwa [send_fault]
    · exact hs
    · exact beginCall_keepsDuties hs
    · exact endCall_keepsDuties hs
  · exact constructCall_keepsDuties pin tb

/-- The engine offers a capacity within the bound, and the payload of its packet, which is not empty and is the one
latched (spec/45_transmission_controller.md R202, R206, R207). -/
theorem engineInvoke_keepsDuties {cap : Nat} (hs : s.fault.KeepsDuties) (hhost : s.HostInv) (hdriven : s.DrivenInv)
    (h : engineInvoke cap s = .next t) : t.fault.KeepsDuties := by
  obtain ⟨rfl, -⟩ | ⟨p, idle, u, htx, hreq, rfl⟩ := engineInvoke_eq_next_cases h
  · exact hs
  · rw [afterInvoke_fault]
    obtain ⟨-, rfl⟩ | ⟨-, blk, out, status, -, rfl⟩ := stepRequest_cases hreq
    · exact admission_keepsDuties (Nat.min_le_right _ _) (hhost.sent_payload p _ idle htx) (hdriven.latched p idle htx)
    · exact hs

end Duties

/-- Settles O60: only the engine makes a STEP, and it keeps the caller's duties. -/
theorem controllerKeepsTheCallersDuties : Obligations.ControllerKeepsTheCallersDuties := by
  intro s t _ hhost hdriven hdirect hfault h
  have hturn : s.afterTurn.fault.KeepsDuties := by rw [afterTurn_fault, hfault]; decide
  obtain ⟨hturnOf, hcall⟩ | ⟨-, hengine⟩ := step_cases h
  · obtain ⟨-, w, -, rfl⟩ | ⟨-, -, rfl⟩ | ⟨hwait, i, rest, hdec, hexec⟩ := hcall
    · exact resume_keepsDuties hturn w
    · exact hturn
    · exact exec_keepsDuties (s := s.afterTurn.consume rest) hturn
        (request_ne_step hdirect hturnOf hwait hdec hfault) hexec
  · obtain ⟨cap, -, hinvoke⟩ | ⟨-, rfl⟩ | ⟨-, rfl⟩ | ⟨-, rfl⟩ | ⟨-, rfl⟩ := hengine
    · exact engineInvoke_keepsDuties hturn (hhost.of_hostView_eq rfl) (hdriven.of_drivenView_eq rfl) hinvoke
    · rwa [sendSegment_fault]
    · rwa [settle_fault]
    · rwa [doneEvent_fault]
    · exact txFail_keepsDuties hturn

/-! ### A payload's bits read back -/

/-- The bits of a byte in the order they are sent (spec/20_memory.md R54). -/
def byteBits (b : Byte) : List Bool := (List.range 8).map fun j => b.getLsbD (7 - j)

@[simp] theorem byteBits_length (b : Byte) : (byteBits b).length = 8 := by simp [byteBits]

theorem byteOfBits_byteBits (b : Byte) : byteOfBits (byteBits b) = b := by
  revert b
  decide

/-- Past its first byte a payload's bits are those of the rest. -/
theorem payloadBit_cons_add (b : Byte) (p : Payload) (j : Nat) : payloadBit (b :: p) (8 + j) = payloadBit p j := by
  have hbyte : (8 + j) / 8 = j / 8 + 1 := by omega
  have hbit : (8 + j) % 8 = j % 8 := by omega
  rw [payloadBit, payloadBit, hbyte, hbit, payRead, payRead, List.getD_cons_succ]

theorem payloadBits_cons_head (b : Byte) (p : Payload) : payloadBits (b :: p) 0 8 = byteBits b := by
  simp [payloadBits, byteBits, payloadBit, payRead, List.range_succ]

/-- A payload's bits begin with those of its first byte. -/
theorem allBits_cons (b : Byte) (p : Payload) : allBits (b :: p) = byteBits b ++ allBits p := by
  have hlen : 8 * (b :: p).length = 8 + 8 * p.length := by rw [List.length_cons]; omega
  rw [allBits, hlen, payloadBits_add, payloadBits_cons_head]
  simp [allBits, payloadBits, payloadBit_cons_add]

/-- Eight bits at a time, a payload's bits give its bytes back. -/
theorem bytesOfBits_allBits (p : Payload) : bytesOfBits p.length (allBits p) = p := by
  induction p with
  | nil => rfl
  | cons b p ih =>
    rw [allBits_cons, List.length_cons, bytesOfBits, List.take_left' (byteBits_length b),
      List.drop_left' (byteBits_length b), byteOfBits_byteBits, ih]

/-! ### A packet's symbols read back -/

section Symbols
variable (prof : Profile)

/-- Only LEAD_SYM begins LOW, and only END_SYM ends HIGH (spec/30_encoding.md R76). -/
theorem symbol_levels :
    ∀ x ∈ [prof.leadSym, prof.endSym, prof.bit0Sym, prof.bit1Sym],
      (x.level0 = .low ↔ x = prof.leadSym) ∧ (x.level1 = .high ↔ x = prof.endSym) := by
  simp [Profile.leadSym, Profile.endSym, Profile.bit0Sym, Profile.bit1Sym]

/-- The four symbols are distinct where the bits differ in their first duration. -/
theorem symbols_nodup (hbits : prof.bit0Sym.duration0 ≠ prof.bit1Sym.duration0) :
    [prof.leadSym, prof.endSym, prof.bit0Sym, prof.bit1Sym].Nodup := by
  have hbit : prof.bit0Sym ≠ prof.bit1Sym := fun h => hbits (congrArg Symbol.duration0 h)
  simpa [Profile.leadSym, Profile.endSym, Profile.bit0Sym, Profile.bit1Sym] using hbit

/-- The classification names each symbol where the four are distinct. -/
theorem classify_symbols (hbits : prof.bit0Sym.duration0 ≠ prof.bit1Sym.duration0) :
    prof.classify prof.leadSym = some .lead ∧ prof.classify prof.endSym = some .ending ∧
      ∀ bit, prof.classify (prof.bitSym bit) = some (.bit bit) := by
  have hdistinct := symbols_nodup prof hbits
  simp only [List.nodup_cons, List.mem_cons, List.not_mem_nil, or_false, not_or] at hdistinct
  obtain ⟨⟨hle, hl0, hl1⟩, ⟨he0, he1⟩, h01, -⟩ := hdistinct
  refine ⟨if_pos rfl, ?_, ?_⟩
  · rw [Profile.classify, if_neg (Ne.symm hle), if_pos rfl]
  · intro bit
    cases bit with
    | true =>
      rw [Profile.bitSym, if_pos rfl, Profile.classify, if_neg (Ne.symm hl1), if_neg (Ne.symm he1), if_pos rfl]
    | false =>
      rw [Profile.bitSym, if_neg (by decide), Profile.classify, if_neg (Ne.symm hl0), if_neg (Ne.symm he0), if_neg h01,
        if_pos rfl]

/-- The bits among the classes of a packet's symbols are the payload's. -/
theorem bits_of_packetSeq (hbits : prof.bit0Sym.duration0 ≠ prof.bit1Sym.duration0) (p : Payload) :
    ((packetSeq prof p).filterMap prof.classify).filterMap SymbolClass.bitOf = allBits p := by
  obtain ⟨hlead, hend, hbit⟩ := classify_symbols prof hbits
  have hclasses : (packetSeq prof p).filterMap prof.classify =
      .lead :: ((allBits p).map SymbolClass.bit ++ [.ending]) := by
    simp [packetSeq, List.filterMap_map, hlead, hend, hbit]
  rw [hclasses]
  simp [List.filterMap_cons, List.filterMap_map, Function.comp_def, SymbolClass.bitOf]

theorem readPacket_packetSeq (hbits : prof.bit0Sym.duration0 ≠ prof.bit1Sym.duration0) (p : Payload) :
    prof.readPacket p.length (packetSeq prof p) = p := by
  rw [Profile.readPacket, bits_of_packetSeq prof hbits, bytesOfBits_allBits]

end Symbols

/-- With the default ratios the bits last TB and 3 * TB ticks at first, which no admitted TB confuses. -/
theorem defaultRatios_bits_differ {tb : Byte} (htb : 2 ≤ tb.toNat) :
    (profileOf tb defaultRatios).bit0Sym.duration0 ≠ (profileOf tb defaultRatios).bit1Sym.duration0 := by
  intro h
  have hticks : tb.toNat % 32768 = tb.toNat * 3 % 32768 := by
    simpa [Profile.bit0Sym, Profile.bit1Sym, profileOf, defaultRatios, ticksOf] using congrArg BitVec.toNat h
  have hlt := tb.isLt
  omega

/-- Settles O7: the levels tell LEAD_SYM and END_SYM apart, and the first duration tells the bits apart. -/
theorem symbolsClassify : Obligations.SymbolsClassify := by
  intro tb htb
  have hbits := defaultRatios_bits_differ htb
  exact ⟨symbols_nodup _ hbits, symbol_levels _, hbits, Nat.mul_comm _ _, Nat.mul_one _, readPacket_packetSeq _ hbits⟩

/-! ### A held call -/

/-- A scheduled turn taken leaves the rest of the schedule, and draws no free value. -/
theorem afterTurn_of_cons {s : State} {turn : Turn} {ts : List Turn} (h : s.turns = turn :: ts) :
    s.afterTurn = { s with turns := ts } := by
  simp [State.afterTurn, h]

/-- On its turn the host goes on with the call it holds in. -/
theorem step_of_held {s : State} {w : HostWait} (hfault : s.fault = .none) (hwait : s.wait = some w)
    (hturn : s.nextTurn = .host) : step s = .next (s.afterTurn.resume w) := by
  simp [step, runTurn, hturn, hostTurn, hwait, hfault]

/-- Settles O41: the host looks again at its held sendRaw, which waits for the packet in flight alone. -/
theorem heldSendRawResumes : Obligations.HeldSendRawResumes := by
  intro s p ts hfault hwait hturns
  rw [step_of_held hfault hwait (nextTurn_of_cons hturns), afterTurn_of_cons hturns]
  constructor
  · intro hflight
    simp [State.resume, hflight]
  · intro hflight
    simp [State.resume, hflight, State.startPacket]

end Sys2Proof.Machine

/-! PROOFS. The encodings: the fields of a symbol's word, the symbols at the default timebase, the requests the spec
gives bits for, and what a STEP request and its response carry. -/

namespace Sys2Proof

/-! ### The commands' bytes -/

/-- An opcode byte of the SET kind and its five arguments (spec/30_encoding.md R81, R82). -/
theorem decode_set (flags : BitVec 3) (mask index r g b : Byte) (rest : List Byte) :
    decode (opcodeByte kindSet flags :: mask :: index :: r :: g :: b :: rest) =
      .ok (.set mask index r g b, rest) := by
  simp [decode, selectorOf_set, readOperands]

/-- An opcode byte of the FILL kind and its three arguments (spec/30_encoding.md R81, R82). -/
theorem decode_fill (flags : BitVec 3) (r g b : Byte) (rest : List Byte) :
    decode (opcodeByte kindFill flags :: r :: g :: b :: rest) = .ok (.fill r g b, rest) := by
  simp [decode, selectorOf_fill, readOperands]

/-- An opcode byte of the RAND kind and its five arguments (spec/30_encoding.md R81, R82). -/
theorem decode_rand (flags : BitVec 3) (mask index r g b : Byte) (rest : List Byte) :
    decode (opcodeByte kindRand flags :: mask :: index :: r :: g :: b :: rest) =
      .ok (.rand mask index r g b, rest) := by
  simp [decode, selectorOf_rand, readOperands]

/-- Settles O3: the op bit is read from a whole byte, and an opcode byte is its kind and any flag field. -/
theorem specEncodingsDecode : Obligations.SpecEncodingsDecode :=
  ⟨by decide, by decide, decode_set 0b101 _ _ _ _ _ _, decode_fill 0b000 _ _ _ _, decode_rand 0b111 _ _ _ _ _ _⟩

/-! ### Block requests on the bus -/

/-- Every bus request is the one its operation has, for a cap read from the field fits the field. -/
theorem busRequest_instr {maxBatch : Nat} (r : BusRequest maxBatch) : busRequest maxBatch r.instr = some r := by
  cases r with
  | reset => rfl
  | step cap p => simp [BusRequest.instr, busRequest, fitsCapField, cap.isLt]

/-- The op bit tells STEP from RESET (spec/30_encoding.md R77). -/
theorem BusRequest.op_eq_zero_iff {maxBatch : Nat} (r : BusRequest maxBatch) :
    r.op = 0 ↔ ∃ cap p, r.instr = .step cap p := by
  cases r with
  | reset => simp [BusRequest.op, BusRequest.instr]
  | step cap p => simp [BusRequest.op, BusRequest.instr]

end Sys2Proof

namespace Sys2Proof.Machine

/-! ### The word of a symbol -/

@[simp] theorem levelOfCode_levelCode (l : Level) : levelOfCode (levelCode l) = l := by
  cases l <;> rfl

@[simp] theorem levelCode_levelOfCode (c : BitVec 1) : levelCode (levelOfCode c) = c := by
  revert c
  decide

section WordFields
variable (s : Symbol)

/-- Bits 14..0 of a symbol's word (spec/30_encoding.md R73). -/
theorem symbolWord_duration0 : (symbolWord s).extractLsb' 0 15 = s.duration0 := by
  rw [symbolWord, BitVec.extractLsb'_append_eq_of_add_le (by decide), BitVec.extractLsb'_eq_self]

/-- Bit 15 of a symbol's word (spec/30_encoding.md R73). -/
theorem symbolWord_level0 : (symbolWord s).extractLsb' 15 1 = levelCode s.level0 := by
  rw [symbolWord, BitVec.extractLsb'_append_eq_of_le (by decide), BitVec.extractLsb'_append_eq_of_add_le (by decide),
    BitVec.extractLsb'_eq_self]

/-- Bits 30..16 of a symbol's word (spec/30_encoding.md R73). -/
theorem symbolWord_duration1 : (symbolWord s).extractLsb' 16 15 = s.duration1 := by
  rw [symbolWord, BitVec.extractLsb'_append_eq_of_le (by decide), BitVec.extractLsb'_append_eq_of_le (by decide),
    BitVec.extractLsb'_append_eq_of_add_le (by decide), BitVec.extractLsb'_eq_self]

/-- Bit 31 of a symbol's word (spec/30_encoding.md R73). -/
theorem symbolWord_level1 : (symbolWord s).extractLsb' 31 1 = levelCode s.level1 := by
  rw [symbolWord, BitVec.extractLsb'_append_eq_of_le (by decide), BitVec.extractLsb'_append_eq_of_le (by decide),
    BitVec.extractLsb'_append_eq_of_le (by decide), BitVec.extractLsb'_eq_self]

theorem symbolOfWord_symbolWord : symbolOfWord (symbolWord s) = s := by
  simp [symbolOfWord, symbolWord_duration0, symbolWord_level0, symbolWord_duration1, symbolWord_level1]

end WordFields

/-- A word is its four fields put together again. -/
theorem symbolWord_symbolOfWord (w : BitVec 32) : symbolWord (symbolOfWord w) = w := by
  have hhigh : w.extractLsb' 31 1 ++ w.extractLsb' 16 15 = w.extractLsb' 16 16 :=
    BitVec.extractLsb'_append_extractLsb'_eq_extractLsb' (by decide)
  have hmid : w.extractLsb' 16 16 ++ w.extractLsb' 15 1 = w.extractLsb' 15 17 :=
    BitVec.extractLsb'_append_extractLsb'_eq_extractLsb' (by decide)
  have hall : w.extractLsb' 15 17 ++ w.extractLsb' 0 15 = w.extractLsb' 0 32 :=
    BitVec.extractLsb'_append_extractLsb'_eq_extractLsb' (by decide)
  simp only [symbolWord, symbolOfWord, levelCode_levelOfCode]
  rw [hhigh, hmid, hall, BitVec.extractLsb'_eq_self]

/-- Settles O5: each field is read back from its bits, and the four fields cover the word. -/
theorem symbolWordLayout : Obligations.SymbolWordLayout :=
  ⟨fun s => ⟨symbolWord_duration0 s, symbolWord_level0 s, symbolWord_duration1 s, symbolWord_level1 s,
    symbolOfWord_symbolWord s⟩, symbolWord_symbolOfWord⟩

/-- Settles O6: the durations of the profile at TB = 70 go into the symbols' fields, and these into the words. -/
theorem defaultSymbolWords : Obligations.DefaultSymbolWords := by
  have hprof : profileOf 70#8 defaultRatios = ⟨70, 70, 210, 70, 69, 489⟩ := rfl
  unfold Obligations.DefaultSymbolWords
  rw [hprof]
  exact ⟨rfl, by decide, rfl, by decide, rfl, by decide, rfl, by decide⟩

/-! ### How many slots a STEP writes -/

/-- The literal's emitter never writes past the space offered. -/
theorem emitLiteral_length_le (literal : List Symbol) (se free : Nat) :
    (emitLiteral literal se free).written.length ≤ free :=
  (List.length_take_le _ _).trans (burst_le_free literal.length se free)

/-- The BitEncoder never writes past the space offered. -/
theorem bitEncode_length_le (prof : Profile) (p : Payload) (bk free : Nat) :
    (bitEncode prof p bk free).written.length ≤ free := by
  rw [bitEncode_length]
  exact burst_le_free _ bk free

section Slots
variable (prof : Profile) (p : Payload) (b : Block) (out : List Symbol) (free : Nat)

theorem endingStage_out_length_le : (endingStage prof b out free).out.length ≤ out.length + free := by
  have hwritten := emitLiteral_length_le [prof.endSym] b.se free
  unfold endingStage
  dsimp only
  split_ifs <;> simpa using hwritten

/-- The Data stage leaves the Ending stage only the slots it did not use itself. -/
theorem dataStage_out_length_le : (dataStage prof p b out free).out.length ≤ out.length + free := by
  have hwritten := bitEncode_length_le prof p b.bk free
  unfold dataStage
  dsimp only
  split_ifs
  · simpa using hwritten
  · simpa using hwritten
  · refine (endingStage_out_length_le ..).trans ?_
    rw [List.length_append]
    omega
  · simpa using hwritten

/-- The Leading stage leaves the Data stage only the slots it did not use itself. -/
theorem leadingStage_out_length_le : (leadingStage prof p b out free).out.length ≤ out.length + free := by
  have hwritten := emitLiteral_length_le [prof.leadSym] b.se free
  unfold leadingStage
  dsimp only
  split_ifs
  · simpa using hwritten
  · simpa using hwritten
  · refine (dataStage_out_length_le ..).trans ?_
    rw [List.length_append]
    omega
  · simpa using hwritten

/-- A STEP's body writes at most the slots it is offered (spec/30_encoding.md R78). -/
theorem stepBody_out_length_le : (stepBody prof p free b).out.length ≤ free := by
  unfold stepBody
  split
  · simpa using leadingStage_out_length_le prof p b [] free
  · simpa using dataStage_out_length_le prof p b [] free
  · simpa using endingStage_out_length_le prof b [] free

end Slots

/-! ### The response to an admitted STEP -/

/-- An admitted STEP on a healthy block commits what its body did, and the body ends with a status. -/
theorem exec_step_of_admits {s : State} {cap : Nat} {p : Payload} (hs : s.BlockInv) (ha : s.admits cap p) :
    ∃ blk out status, stepBody s.profile p cap (s.blk.latch p) = ⟨blk, out, some status⟩ ∧
      exec (.step cap p) s = .next (s.commit blk out status) := by
  obtain ⟨hfault, hchecks⟩ := ha
  have hadm : admission s.impl cap p s.blk = .none := admission_eq_none_iff.2 hchecks
  obtain ⟨hp, hwf⟩ := Block.wf_latch hs.blk_wf hadm
  have hends := stepBody_endsOrHolds s.profile cap hp hwf
  obtain ⟨status, hstatus⟩ : ∃ status, (stepBody s.profile p cap (s.blk.latch p)).status = some status := by
    obtain ⟨h, -⟩ | ⟨h, -⟩ := hends
    · exact ⟨_, h⟩
    · exact ⟨_, h⟩
  generalize hbody : stepBody s.profile p cap (s.blk.latch p) = body at hstatus
  obtain ⟨blk, out, _⟩ := body
  obtain rfl := hstatus
  refine ⟨blk, out, status, rfl, guarded_eq_next.2 ⟨hfault, ?_⟩⟩
  simp [stepRequest, hadm, hbody]

/-- The codes of the two statuses tell them apart (spec/30_encoding.md R78). -/
theorem statusCode_eq_iff (status : Status) :
    (statusCode status = 0 ↔ status = .paused) ∧ (statusCode status = 1 ↔ status = .complete) := by
  cases status <;> decide

/-- Settles O2: cap's field is as wide as MAX_BATCH needs, and the response counts the slots the body wrote. -/
theorem blockRequestFields : Obligations.BlockRequestFields := by
  refine ⟨capWidth_le_iff, fun maxBatch cap p hcap => busRequest_step (fitsCapField_of_le hcap) p,
    fun maxBatch r => ⟨busRequest_instr r, r.op_eq_zero_iff⟩, ?_⟩
  intro s cap p hs ha
  obtain ⟨blk, out, status, hbody, hexec⟩ := exec_step_of_admits hs ha
  have hlen : out.length ≤ cap := by simpa [hbody] using stepBody_out_length_le s.profile p (s.blk.latch p) cap
  exact ⟨_, status, hexec, rfl, hlen, statusCode_eq_iff status⟩

end Sys2Proof.Machine

/-! PROOFS. The timing profile: the durations of an admitted configuration, how long a symbol and a packet hold the line,
and that only a construction sets what the profile rests on. -/

namespace Sys2Proof.Machine

/-! ### The durations of a profile -/

theorem durationOk_iff {d : Nat} : durationOk d = true ↔ 1 ≤ d ∧ d ≤ 32767 := by simp [durationOk]

theorem Profile.ok_iff {prof : Profile} :
    prof.ok = true ↔
      (1 ≤ prof.t0h ∧ prof.t0h ≤ 32767) ∧ (1 ≤ prof.t0l ∧ prof.t0l ≤ 32767) ∧
        (1 ≤ prof.t1h ∧ prof.t1h ≤ 32767) ∧ (1 ≤ prof.t1l ∧ prof.t1l ≤ 32767) ∧
        (1 ≤ prof.leadD0 ∧ prof.leadD0 ≤ 32767) ∧ (1 ≤ prof.endD0 ∧ prof.endD0 ≤ 32767) := by
  simp only [Profile.ok, Bool.and_eq_true, durationOk_iff, and_assoc]

theorem configOk_iff {tb : Byte} {r : Ratios} :
    configOk tb r = true ↔ 2 ≤ tb.toNat ∧ (profileOf tb r).ok = true := by simp [configOk]

/-- A duration within its field's range is held untruncated (spec/30_encoding.md R74). -/
theorem ticksOf_toNat_of_le {d : Nat} (h : d ≤ 32767) : (ticksOf d).toNat = d := by
  rw [ticksOf, BitVec.toNat_ofNat, Nat.mod_eq_of_lt (by omega)]

/-- The profile of the documented ratios (spec/40_timing_profile.md R103). -/
theorem profileOf_defaultRatios (tb : Byte) :
    profileOf tb defaultRatios =
      ⟨tb.toNat, tb.toNat, tb.toNat * 3, tb.toNat, tb.toNat - 1, tb.toNat * 7 - 1⟩ := by
  simp [profileOf, defaultRatios]

/-- Settles O9: the profile of the documented ratios, at TB = 70. -/
theorem defaultProfile : Obligations.DefaultProfile := profileOf_defaultRatios 70#8

/-- Every TB of at least 2 is admitted with the documented ratios, as the largest duration is 7 * 255 - 1 ticks. -/
theorem configOk_defaultRatios_iff (tb : Byte) : configOk tb defaultRatios = true ↔ 2 ≤ tb.toNat := by
  have hlt := tb.isLt
  rw [configOk_iff, Profile.ok_iff, profileOf_defaultRatios]
  dsimp only
  omega

/-- The duration fields of the four symbols hold the durations of a profile in range. -/
theorem Profile.symbol_durations {prof : Profile} (h : prof.ok = true) :
    prof.leadSym.duration0.toNat = prof.leadD0 ∧ prof.endSym.duration0.toNat = prof.endD0 ∧
      prof.bit0Sym.duration0.toNat = prof.t0h ∧ prof.bit0Sym.duration1.toNat = prof.t0l ∧
      prof.bit1Sym.duration0.toNat = prof.t1h ∧ prof.bit1Sym.duration1.toNat = prof.t1l := by
  obtain ⟨⟨-, ht0h⟩, ⟨-, ht0l⟩, ⟨-, ht1h⟩, ⟨-, ht1l⟩, ⟨-, hlead⟩, ⟨-, hend⟩⟩ := Profile.ok_iff.1 h
  exact ⟨ticksOf_toNat_of_le hlead, ticksOf_toNat_of_le hend, ticksOf_toNat_of_le ht0h, ticksOf_toNat_of_le ht0l,
    ticksOf_toNat_of_le ht1h, ticksOf_toNat_of_le ht1l⟩

/-- Settles O10: the ranges come from 2 ≤ TB ≤ 255, and admission keeps every duration within its field. -/
theorem profileRanges : Obligations.ProfileRanges := by
  refine ⟨configOk_defaultRatios_iff, fun tb htb => ?_, fun tb r h => Profile.symbol_durations (configOk_iff.1 h).2⟩
  have hlt := tb.isLt
  rw [profileOf_defaultRatios]
  dsimp only
  omega

/-! ### How long a symbol holds the line -/

/-- A symbol holds the line for its two durations (spec/30_encoding.md R72). -/
theorem lineTicks_segmentsOf (x : Symbol) :
    lineTicks (segmentsOf x) = x.duration0.toNat + x.duration1.toNat := rfl

/-- Settles O11: the second segment of LEAD_SYM and of END_SYM gives back the tick that its first duration leaves out. -/
theorem symbolsLastTheirRatios : Obligations.SymbolsLastTheirRatios := by
  intro tb r h prof
  obtain ⟨-, hok⟩ := configOk_iff.1 h
  obtain ⟨hlead, hend, ht0h, ht0l, ht1h, ht1l⟩ := Profile.symbol_durations hok
  obtain ⟨-, -, -, -, ⟨hlead1, -⟩, ⟨hend1, -⟩⟩ := Profile.ok_iff.1 hok
  have hleadTicks : prof.leadD0 + 1 = tb.toNat * r.prePktL :=
    Nat.sub_add_cancel (hlead1.trans (Nat.sub_le _ 1))
  have hendTicks : prof.endD0 + 1 = tb.toNat * r.interPktH :=
    Nat.sub_add_cancel (hend1.trans (Nat.sub_le _ 1))
  refine ⟨?_, ?_, ?_, ?_, ?_, rfl, ?_, rfl⟩
  · rw [lineTicks_segmentsOf, hlead]
    exact hleadTicks
  · simp [segmentsOf, Profile.leadSym]
  · rw [lineTicks_segmentsOf, hend]
    exact hendTicks
  · simp [segmentsOf, Profile.endSym]
  · rw [lineTicks_segmentsOf, ht0h, ht0l]
    rfl
  · rw [lineTicks_segmentsOf, ht1h, ht1l]
    rfl

/-! ### How long a packet holds the line -/

/-- A run of bit symbols holds the line as long as its zeros and its ones together. -/
theorem lineTicks_waveOf_bits (prof : Profile) (bits : List Bool) :
    lineTicks (waveOf (bits.map prof.bitSym)) =
      bits.count false * lineTicks (segmentsOf prof.bit0Sym) + bits.count true * lineTicks (segmentsOf prof.bit1Sym) := by
  induction bits with
  | nil => simp [lineTicks]
  | cons bit bits ih =>
    rw [List.map_cons, waveOf_cons, lineTicks_append, ih]
    cases bit <;> simp [Profile.bitSym] <;> ring

/-- A packet holds the line for LEAD_SYM, its bits and END_SYM (spec/43_waveform_encoder.md R160). -/
theorem lineTicks_waveOf_packetSeq (prof : Profile) (p : Payload) :
    lineTicks (waveOf (packetSeq prof p)) =
      lineTicks (segmentsOf prof.leadSym) + (allBits p).count false * lineTicks (segmentsOf prof.bit0Sym) +
        (allBits p).count true * lineTicks (segmentsOf prof.bit1Sym) + lineTicks (segmentsOf prof.endSym) := by
  rw [packetSeq, waveOf_cons, waveOf_append, waveOf_cons, waveOf_nil, List.append_nil, lineTicks_append,
    lineTicks_append, lineTicks_waveOf_bits]
  ring

/-- A packet's time on the line, from its number of zeros and ones (spec/70_reset_and_hazards.md R261). -/
theorem lineTicks_packet {tb : Byte} {r : Ratios} (h : configOk tb r = true) (p : Payload) :
    lineTicks (waveOf (packetSeq (profileOf tb r) p)) =
      tb.toNat * r.prePktL + (allBits p).count false * ((profileOf tb r).t0h + (profileOf tb r).t0l) +
        (allBits p).count true * ((profileOf tb r).t1h + (profileOf tb r).t1l) + tb.toNat * r.interPktH := by
  obtain ⟨hlead, -, hend, -, hbit0, -, hbit1, -⟩ := symbolsLastTheirRatios tb r h
  rw [lineTicks_waveOf_packetSeq, hlead, hend, hbit0, hbit1]
  rfl

/-- A packet's time on the line with the documented ratios (spec/70_reset_and_hazards.md R261). -/
theorem lineTicks_default_packet {tb : Byte} (htb : 2 ≤ tb.toNat) (p : Payload) :
    lineTicks (waveOf (packetSeq (profileOf tb defaultRatios) p)) =
      tb.toNat * (1 + 2 * (allBits p).count false + 4 * (allBits p).count true + 7) := by
  rw [lineTicks_packet ((configOk_defaultRatios_iff tb).2 htb), profileOf_defaultRatios]
  simp only [defaultRatios]
  ring

/-- Settles O12: the packet's sequence is LEAD_SYM, a symbol for each zero and each one, and END_SYM. -/
theorem packetLineTime : Obligations.PacketLineTime := by
  refine ⟨fun tb r p h => ⟨?_, lineTicks_packet h p⟩, fun tb p htb => lineTicks_default_packet htb p, ?_, ?_⟩
  · rw [List.count_false_add_count_true, allBits_length]
  · rw [lineTicks_default_packet (by decide)]
    decide
  · rw [lineTicks_default_packet (by decide)]
    decide

/-! ### What a construction fixes -/

/-- What a construction fixes: the parameters it was given and the profile it computed (spec/40_timing_profile.md R109). -/
def State.configView (s : State) : Byte × Profile × Impl × BitVec 32 := (s.tb, s.profile, s.impl, s.pin)

theorem configView_eq_iff {s t : State} :
    t.configView = s.configView ↔ t.tb = s.tb ∧ t.profile = s.profile ∧ t.impl = s.impl ∧ t.pin = s.pin := by
  simp [State.configView]

@[simp] theorem send_configView (payload : Option Payload) (s : State) :
    (s.send payload).configView = s.configView := by
  obtain h | ⟨p, -, -, -, ⟨-, h⟩ | ⟨-, h⟩⟩ := send_cases payload s <;> simp [State.configView, h]

@[simp] theorem beginCall_configView (s : State) : s.beginCall.configView = s.configView := by
  obtain h | ⟨-, -, h⟩ | ⟨-, -, h⟩ := beginCall_cases s <;> simp [State.configView, h]

@[simp] theorem endCall_configView (s : State) : s.endCall.configView = s.configView := by
  obtain h | ⟨-, -, h⟩ | ⟨-, -, h⟩ := endCall_cases s <;> simp [State.configView, h]

@[simp] theorem afterInvoke_configView (s : State) : s.afterInvoke.configView = s.configView := by
  obtain h | ⟨-, -, h⟩ := afterInvoke_cases s <;> simp [State.configView, h]

@[simp] theorem sendSegment_configView (s : State) : s.sendSegment.configView = s.configView := by
  obtain h | ⟨seg, rest, -, h⟩ := sendSegment_cases s <;> simp [State.configView, h]

@[simp] theorem settle_configView (s : State) : s.settle.configView = s.configView := by
  obtain h | ⟨source, idle, -, -, h⟩ := settle_cases s <;> simp [State.configView, h]

@[simp] theorem doneEvent_configView (s : State) : s.doneEvent.configView = s.configView := by
  obtain h | ⟨p, idle, -, h⟩ | ⟨idle, -, h⟩ := doneEvent_cases s <;> simp [State.configView, h]

@[simp] theorem txFail_configView (s : State) : s.txFail.configView = s.configView := by
  obtain h | ⟨-, h⟩ := txFail_cases s <;> simp [State.configView, h]

/-- A STEP writes the block, the slots and the response, or the fault register. -/
theorem stepRequest_configView {s t : State} {cap : Nat} {p : Payload} (h : stepRequest cap p s = .next t) :
    t.configView = s.configView := by
  obtain ⟨-, rfl⟩ | ⟨-, blk, out, status, -, rfl⟩ := stepRequest_cases h <;> rfl

theorem engineInvoke_configView {cap : Nat} {s t : State} (h : engineInvoke cap s = .next t) :
    t.configView = s.configView := by
  obtain ⟨rfl, -⟩ | ⟨p, idle, u, -, hstep, rfl⟩ := engineInvoke_eq_next_cases h
  · rfl
  · rw [afterInvoke_configView, stepRequest_configView hstep]

/-- Of the instructions, only a construction sets the timebase, the parameters or the profile. -/
theorem exec_configView {i : Instr} {s t : State} (hi : ∀ pin tb, i ≠ .construct pin tb) (h : exec i s = .next t) :
    t.configView = s.configView := by
  obtain ⟨-, hcall⟩ | ⟨pin, tb, hc, -⟩ := exec_cases h
  · obtain ⟨cap, p, -, hstep⟩ | ⟨-, rfl⟩ | ⟨payload, -, rfl⟩ | ⟨f, -, rfl⟩ | ⟨-, rfl⟩ | ⟨-, rfl⟩ := hcall
    · exact stepRequest_configView hstep
    · split <;> rfl
    · exact send_configView payload s
    · rfl
    · exact beginCall_configView s
    · exact endCall_configView s
  · exact absurd hc (hi pin tb)

/-- No move of the engine sets the timebase, the parameters or the profile. -/
theorem runTurn_configView {turn : Turn} {s t : State} (hturn : turn ≠ .host) (h : runTurn turn s = .next t) :
    t.configView = s.configView := by
  cases turn with
  | host => exact absurd rfl hturn
  | invoke cap => exact engineInvoke_configView (guarded_eq_next.1 h).2
  | send | settle | done | fail =>
    obtain ⟨-, ⟨⟩⟩ := guarded_eq_next.1 h
    simp

/-- Settles O13: every operation but a construction, and every move of the engine, leaves what a construction fixed. -/
theorem profileImmutable : Obligations.ProfileImmutable :=
  ⟨fun _ _ _ hi h => configView_eq_iff.1 (exec_configView hi h),
    fun _ _ _ hturn h => configView_eq_iff.1 (runTurn_configView hturn h)⟩

end Sys2Proof.Machine

/-! PROOFS. The BitEncoder: the bits it emits and their order, its two reports, and its calls over one packet. -/

namespace Sys2Proof.Machine

/-! ### One call of the BitEncoder -/

/-- The first bits of a run are a shorter run from the same place. -/
theorem payloadBits_take (p : Payload) (start n m : Nat) :
    (payloadBits p start n).take m = payloadBits p start (min n m) := by
  rw [payloadBits, payloadBits, ← List.map_take, List.take_range, Nat.min_comm]

theorem allBits_eq_flatMap (p : Payload) : allBits p = p.flatMap byteBits := by
  induction p with
  | nil => rfl
  | cons b p ih => rw [allBits_cons, ih, List.flatMap_cons]

/-- A call at a packet's start emits the first bits of the payload. -/
theorem bitEncode_written_start (prof : Profile) (p : Payload) (free : Nat) :
    (bitEncode prof p 0 free).written = ((allBits p).map prof.bitSym).take free := by
  rw [← List.map_take, allBits, payloadBits_take, bitEncode, burst, Nat.sub_zero]

/-- Sub-complete: the last bit is emitted (spec/41_bit_encoder.md R121). -/
theorem bitEncode_done_iff (prof : Profile) (p : Payload) (bk free : Nat) :
    (bitEncode prof p bk free).done = true ↔ bk + burst (8 * p.length) bk free = 8 * p.length := by
  simp [bitEncode, reportDone]

/-- Destination-full: every slot offered is written (spec/41_bit_encoder.md R121). -/
theorem bitEncode_full_iff (prof : Profile) (p : Payload) (bk free : Nat) :
    (bitEncode prof p bk free).full = true ↔ free = burst (8 * p.length) bk free := by
  have hle := burst_le_free (8 * p.length) bk free
  rw [bitEncode, reportFull, decide_eq_true_iff]
  omega

/-- A call that leaves bits to send advances the progress by what it emitted (spec/41_bit_encoder.md R121). -/
theorem bitEncode_progress_of_not_done {prof : Profile} {p : Payload} {bk free : Nat}
    (h : ¬ (bitEncode prof p bk free).done = true) :
    (bitEncode prof p bk free).progress = bk + burst (8 * p.length) bk free :=
  if_neg h

/-- Settles O14: a payload's bits are its bytes' bits in order, and a first call emits a prefix of them. -/
theorem bitsMostSignificantFirst : Obligations.BitsMostSignificantFirst := by
  intro p bits
  have hbits : allBits p = bits := allBits_eq_flatMap p
  refine ⟨hbits, fun prof free => ?_⟩
  rw [bitEncode_written_start, hbits]
  rfl

/-- Settles O15: a call emits the fewer of the bits left and the slots offered, and each report compares the two. -/
theorem bitEncoderReports : Obligations.BitEncoderReports := by
  intro prof p bk free hbk r
  have hdone : r.done = true ↔ bk + r.written.length = 8 * p.length := by
    rw [bitEncode_length, bitEncode_done_iff]
  have hfull : r.full = true ↔ free = r.written.length := by
    rw [bitEncode_length, bitEncode_full_iff]
  have hlen : r.written.length = min (8 * p.length - bk) free := bitEncode_length prof p bk free
  refine ⟨hdone, hfull, ?_, fun hnot => ?_⟩
  · rw [hdone, hfull]
    omega
  · rw [← Bool.not_eq_true, hdone] at hnot
    rw [hfull]
    omega

/-! ### The calls over one packet -/

/-- What a drain from any progress emits: every bit left, once and in order. -/
theorem bitDrain_eq_some {prof : Profile} {p : Payload} {frees : List Nat} {bk : Nat} {out : List Symbol}
    (h : bitDrain prof p frees bk = some out) :
    out = (payloadBits p bk (8 * p.length - bk)).map prof.bitSym := by
  induction frees generalizing bk out with
  | nil => cases h
  | cons free frees ih =>
    rw [bitDrain] at h
    split at h
    case isTrue hdone =>
      obtain ⟨-, ⟨⟩⟩ := Option.ite_none_right_eq_some.1 h
      rw [bitEncode_done_iff] at hdone
      rw [bitEncode, show burst (8 * p.length) bk free = 8 * p.length - bk by omega]
    case isFalse hdone =>
      obtain ⟨rest, hrest, rfl⟩ := Option.map_eq_some_iff.1 h
      have hsplit : 8 * p.length - bk = burst (8 * p.length) bk free +
          (8 * p.length - (bk + burst (8 * p.length) bk free)) := by
        unfold burst
        omega
      rw [ih hrest, bitEncode_progress_of_not_done hdone, bitEncode, ← List.map_append, ← payloadBits_add, ← hsplit]

/-- Settles O16: the whole payload is what a drain from progress 0 has left to emit. -/
theorem bitEncoderResumes : Obligations.BitEncoderResumes :=
  fun _ _ _ _ _ h => bitDrain_eq_some h

end Sys2Proof.Machine

/-! PROOFS. The SymbolEmitter: its two outcomes on a one-symbol literal. -/

namespace Sys2Proof.Machine

/-- Settles O17: with no slot the call reports full alone; with `n + 1` it writes the symbol and is full when `n = 0`. -/
theorem symbolEmitterOutcomes : Obligations.SymbolEmitterOutcomes := by
  intro x free
  cases free with
  | zero => simp [emitLiteral_no_slot]
  | succ n => simp [emitLiteral_slot]

end Sys2Proof.Machine

/-! PROOFS. The waveform encoder: STEP and its closed form, the packets that its STEPs drain, what it leaves unchanged, where
a step stops, and the packets that sendRaw hands to it. -/

namespace Sys2Proof.Machine

/-! ### The packet's sequence -/

@[simp] theorem packetSeq_length (prof : Profile) (p : Payload) : (packetSeq prof p).length = 8 * p.length + 2 := by
  simp [packetSeq]

theorem packetSeq_getElem?_bit (prof : Profile) {p : Payload} {g : Nat} (hg : g < 8 * p.length) :
    (packetSeq prof p)[1 + g]? = some (prof.bitSym (payloadBit p g)) := by
  have hbit : (allBits p)[g]? = some (payloadBit p g) := by simp [allBits, payloadBits, hg]
  rw [packetSeq, Nat.add_comm, List.getElem?_cons_succ, List.getElem?_append_left (by simpa using hg),
    List.getElem?_map, hbit, Option.map_some]

theorem packetSeq_getElem?_end (prof : Profile) (p : Payload) :
    (packetSeq prof p)[8 * p.length + 1]? = some prof.endSym := by
  rw [packetSeq, List.getElem?_cons_succ, List.getElem?_append_right (by simp)]
  simp

/-- Settles O23: LEAD_SYM stands before the bits' symbols and END_SYM after them. -/
theorem packetSequence : Obligations.PacketSequence := by
  intro prof p
  refine ⟨packetSeq_length prof p, rfl, fun g b hg hb => ?_, packetSeq_getElem?_end prof p⟩
  rw [packetSeq_getElem?_bit prof hg, payloadBit, payRead, List.getD_eq_getElem?_getD, hb]
  rfl

/-- From a position in Data, the bits left and END_SYM. -/
theorem packetSeq_drop_data (prof : Profile) {p : Payload} {bk : Nat} (h : bk ≤ 8 * p.length) :
    (packetSeq prof p).drop (1 + bk) =
      (payloadBits p bk (8 * p.length - bk)).map prof.bitSym ++ [prof.endSym] := by
  have hend : 1 + 8 * p.length = 1 + bk + (8 * p.length - bk) := by omega
  rw [← packetSeq_data prof p bk _ (by omega), ← packetSeq_end prof p, hend,
    ← List.drop_drop (i := 8 * p.length - bk), List.take_append_drop]

/-! ### A block and its position -/

theorem position_blockAt {p : Payload} {q : Nat} (hq : q ≤ 8 * p.length + 1) : (blockAt p q).position p.length = q := by
  unfold blockAt
  split_ifs <;> simp only [Block.position] <;> omega

@[simp] theorem blockAt_pkt (p : Payload) (q : Nat) : (blockAt p q).pkt = some p := by
  unfold blockAt
  split_ifs <;> rfl

theorem blockAt_data {p : Payload} {bk : Nat} (h : bk < 8 * p.length) :
    blockAt p (1 + bk) = ⟨.data, bk, 0, some p⟩ := by
  simp [blockAt, show 1 + bk ≤ 8 * p.length by omega]

theorem blockAt_ending (p : Payload) : blockAt p (1 + 8 * p.length) = ⟨.ending, 0, 0, some p⟩ := by
  simp [blockAt]

/-- A healthy block is the block of its position (spec/43_waveform_encoder.md R161). -/
theorem Block.eq_blockAt_position {impl : Impl} {b : Block} {p : Payload} (hp : b.pkt = some p)
    (hb : b.wf impl = true) : b = blockAt p (b.position p.length) ∧ b.position p.length ≤ 8 * p.length + 1 := by
  obtain ⟨st, bk, se, pkt⟩ := b
  obtain ⟨rfl, hlen, hdata, hrest⟩ := (Block.wf_iff_of_latched hp).1 hb
  obtain rfl : pkt = some p := hp
  cases st with
  | leading =>
    obtain rfl := hrest (by simp)
    simp [Block.position, blockAt]
  | data =>
    have hbk := hdata rfl
    simp only [Block.position, blockAt_data hbk, true_and]
    omega
  | ending =>
    obtain rfl := hrest (by simp)
    simp only [Block.position, blockAt_ending, true_and]
    omega

@[simp] theorem position_initial (n : Nat) : Block.initial.position n = 0 := rfl

@[simp] theorem position_latch (p : Payload) (n : Nat) (b : Block) : (b.latch p).position n = b.position n := rfl

/-! ### STEP's body is its closed form -/

/-- With fewer slots than symbols left, the closed form fills them and pauses. -/
theorem closedStep_of_lt (prof : Profile) {p : Payload} {cap q : Nat} (h : q + cap < 8 * p.length + 2) :
    closedStep prof p cap q = ⟨blockAt p (q + cap), ((packetSeq prof p).drop q).take cap, some .paused⟩ := by
  have hcount : closedCount p q cap = cap := by unfold closedCount; omega
  rw [closedStep, hcount, if_neg (by omega)]

/-- With a slot for every symbol left, the closed form writes them all and completes. -/
theorem closedStep_of_ge (prof : Profile) {p : Payload} {cap q : Nat} (hq : q ≤ 8 * p.length + 2)
    (h : 8 * p.length + 2 ≤ q + cap) :
    closedStep prof p cap q = ⟨Block.initial, (packetSeq prof p).drop q, some .complete⟩ := by
  have hcount : closedCount p q cap = 8 * p.length + 2 - q := by unfold closedCount; omega
  rw [closedStep, hcount, if_pos (by omega), List.take_of_length_le (by simp)]

theorem endingStage_eq_closedStep (prof : Profile) (p : Payload) (cap : Nat) :
    endingStage prof (blockAt p (1 + 8 * p.length)) [] cap = closedStep prof p cap (1 + 8 * p.length) := by
  rw [blockAt_ending, endingStage_eq _ _ _ _ rfl]
  split
  case isTrue hcap =>
    subst hcap
    rw [closedStep_of_lt prof (by omega), Nat.add_zero, blockAt_ending, List.take_zero]
  case isFalse hcap =>
    rw [closedStep_of_ge prof (by omega) (by omega), packetSeq_end]
    rfl

/-- The Data stage writes its closed form after what the Leading stage wrote. -/
theorem dataStage_eq_closedStep (prof : Profile) {p : Payload} {bk : Nat} (out : List Symbol) (free : Nat)
    (hbk : bk < 8 * p.length) :
    dataStage prof p (blockAt p (1 + bk)) out free =
      { closedStep prof p free (1 + bk) with out := out ++ (closedStep prof p free (1 + bk)).out } := by
  rw [blockAt_data hbk, dataStage_eq prof p _ out free hbk rfl]
  split
  case isTrue hfree =>
    dsimp only at hfree ⊢
    rw [closedStep_of_lt prof (by omega), packetSeq_data prof p bk free (by omega)]
    split
    case isTrue hall => rw [hall, show 1 + bk + (8 * p.length - bk) = 1 + 8 * p.length by omega, blockAt_ending]
    case isFalse hsome => rw [Nat.add_assoc, blockAt_data (by omega)]
  case isFalse hfree =>
    dsimp only at hfree ⊢
    rw [closedStep_of_ge prof (by omega) (by omega), packetSeq_drop_data prof (by omega), List.append_assoc]
    rfl

/-- LEAD_SYM, and then what the closed form writes from the first bit on. -/
theorem closedStep_zero_succ (prof : Profile) (p : Payload) (free : Nat) :
    closedStep prof p (free + 1) 0 =
      { closedStep prof p free 1 with out := prof.leadSym :: (closedStep prof p free 1).out } := by
  by_cases h : free + 1 < 8 * p.length + 2
  · rw [closedStep_of_lt prof (by omega), closedStep_of_lt prof (by omega), Nat.zero_add, Nat.add_comm 1]
    rfl
  · rw [closedStep_of_ge prof (by omega) (by omega), closedStep_of_ge prof (by omega) (by omega)]
    rfl

theorem leadingStage_eq_closedStep (prof : Profile) {p : Payload} (cap : Nat) (hp : 1 ≤ p.length) :
    leadingStage prof p (blockAt p 0) [] cap = closedStep prof p cap 0 := by
  have hdata : blockAt p 1 = ⟨.data, 0, 0, some p⟩ := blockAt_data (bk := 0) (by omega)
  rw [leadingStage_eq _ _ _ _ rfl rfl]
  cases cap with
  | zero => rw [if_pos rfl, closedStep_of_lt prof (by omega), List.take_zero]
  | succ free =>
    rw [if_neg (by omega), closedStep_zero_succ, Nat.add_sub_cancel]
    split
    case isTrue hone =>
      obtain rfl : free = 0 := by omega
      rw [closedStep_of_lt prof (by omega), hdata]
      rfl
    case isFalse hmore =>
      have hstage := dataStage_eq_closedStep prof [prof.leadSym] free (p := p) (bk := 0) (by omega)
      rwa [Nat.add_zero, hdata] at hstage

/-- STEP_body is its closed form over the packet position (spec/43_waveform_encoder.md R161). -/
theorem stepBody_eq_closedStep {impl : Impl} {b : Block} {p : Payload} (prof : Profile) (cap : Nat)
    (hp : b.pkt = some p) (hb : b.wf impl = true) :
    stepBody prof p cap b = closedStep prof p cap (b.position p.length) := by
  obtain ⟨hblk, -⟩ := Block.eq_blockAt_position hp hb
  obtain ⟨-, ⟨hlen, -⟩, hdata, -⟩ := (Block.wf_iff_of_latched (st := b.st) (bk := b.bk) (se := b.se) hp).1 hb
  cases hst : b.st with
  | leading =>
    have hpos : b.position p.length = 0 := by simp [Block.position, hst]
    rw [hpos] at hblk ⊢
    rw [← leadingStage_eq_closedStep prof cap hlen, ← hblk, stepBody, hst]
  | data =>
    have hpos : b.position p.length = 1 + b.bk := by simp [Block.position, hst]
    have hstage := dataStage_eq_closedStep prof [] cap (hdata hst)
    rw [hpos] at hblk ⊢
    rw [← hblk] at hstage
    rw [stepBody, hst]
    exact hstage
  | ending =>
    have hpos : b.position p.length = 1 + 8 * p.length := by simp [Block.position, hst]
    rw [hpos] at hblk ⊢
    rw [← endingStage_eq_closedStep prof p cap, ← hblk, stepBody, hst]

/-! ### An admitted STEP -/

section Admitted
variable {s : State} {cap : Nat} {p : Payload} (hs : s.BlockInv) (ha : s.admits cap p)
include hs ha

/-- The latched block of an admitted STEP is the block of its position, which lies within the packet. -/
theorem latch_eq_blockAt :
    s.blk.latch p = blockAt p (s.blk.position p.length) ∧ s.blk.position p.length ≤ 8 * p.length + 1 := by
  obtain ⟨hp, hwf⟩ := Block.wf_latch hs.blk_wf (admission_eq_none_iff.2 ha.2)
  exact Block.eq_blockAt_position hp hwf

/-- An admitted STEP commits what the closed form says (spec/43_waveform_encoder.md R161). -/
theorem exec_step_of_closedStep {blk : Block} {out : List Symbol} {status : Status}
    (h : closedStep s.profile p cap (s.blk.position p.length) = ⟨blk, out, some status⟩) :
    exec (.step cap p) s = .next (s.commit blk out status) := by
  obtain ⟨hp, hwf⟩ := Block.wf_latch hs.blk_wf (admission_eq_none_iff.2 ha.2)
  obtain ⟨blk', out', status', hbody, hexec⟩ := exec_step_of_admits hs ha
  rw [stepBody_eq_closedStep s.profile cap hp hwf, position_latch, h] at hbody
  cases hbody
  exact hexec

theorem exec_step_paused (h : s.blk.position p.length + cap < 8 * p.length + 2) :
    exec (.step cap p) s = .next
      (s.commit (blockAt p (s.blk.position p.length + cap))
        (((packetSeq s.profile p).drop (s.blk.position p.length)).take cap) .paused) :=
  exec_step_of_closedStep hs ha (closedStep_of_lt s.profile h)

theorem exec_step_complete (h : 8 * p.length + 2 ≤ s.blk.position p.length + cap) :
    exec (.step cap p) s = .next
      (s.commit Block.initial ((packetSeq s.profile p).drop (s.blk.position p.length)) .complete) := by
  obtain ⟨-, hpos⟩ := latch_eq_blockAt hs ha
  exact exec_step_of_closedStep hs ha (closedStep_of_ge s.profile (by omega) h)

end Admitted

/-- Settles O18: STEP_body is the closed form, whose block is that of the position reached. -/
theorem stepClosedForm : Obligations.StepClosedForm := by
  intro s cap p hs ha q w out
  obtain ⟨-, hpos⟩ := latch_eq_blockAt hs ha
  by_cases h : q + cap < 8 * p.length + 2
  · have hw : w = cap := by omega
    rw [if_neg (by omega), exec_step_paused hs ha h]
    simp only [out, hw, blockAt, q]
    split_ifs <;> rfl
  · have hout : out = (packetSeq s.profile p).drop q := List.take_of_length_le (by simp; omega)
    rw [if_pos (by omega), exec_step_complete hs ha (by omega), hout]
    rfl

/-- Settles O20: with no slot the position stays, and the block is the one that the latch left. -/
theorem stepWithNoSlots : Obligations.StepWithNoSlots := by
  intro s p hs ha
  obtain ⟨hblk, hpos⟩ := latch_eq_blockAt hs ha
  refine ⟨_, exec_step_paused hs ha (by omega), rfl, rfl, ?_, List.append_nil _⟩
  have hpkt : (s.blk.latch p).pkt = some p := by rw [hblk, blockAt_pkt]
  rw [commit_blk, Nat.add_zero, ← hblk, ← hpkt]
  rfl

/-- Settles O21: a STEP pauses where its slots are fewer than the symbols left, and completes otherwise. -/
theorem stepAnswersPausedOrComplete : Obligations.StepAnswersPausedOrComplete := by
  intro s cap p hs ha
  by_cases h : s.blk.position p.length + cap < 8 * p.length + 2
  · have hlen : (((packetSeq s.profile p).drop (s.blk.position p.length)).take cap).length = cap := by simp; omega
    exact ⟨_, exec_step_paused hs ha h, hlen.le, rfl, .inr ⟨rfl, blockAt_pkt p _, hlen⟩⟩
  · have hlen : ((packetSeq s.profile p).drop (s.blk.position p.length)).length ≤ cap := by simp; omega
    exact ⟨_, exec_step_complete hs ha (by omega), hlen, rfl, .inl ⟨rfl, rfl⟩⟩

/-- Settles O22: a STEP commits its body's result, or writes the fault register. -/
theorem stepFrame : Obligations.StepFrame := by
  intro s t cap p h
  obtain ⟨hfault, hreq⟩ := guarded_eq_next.1 h
  obtain ⟨-, rfl⟩ | ⟨-, blk, out, status, -, rfl⟩ := stepRequest_cases hreq
  · simp
  · simp [hfault]

/-! ### STEPs that drain a packet -/

/-- A STEP that the caller sees was admitted. -/
theorem admits_of_stepOnce {s : State} {cap : Nat} {p : Payload} {r : State × List Symbol × Status}
    (h : stepOnce cap p s = some r) : s.admits cap p := by
  unfold stepOnce at h
  split at h
  case h_1 t hexec =>
    obtain ⟨hfault, hreq⟩ := guarded_eq_next.1 hexec
    obtain ⟨hadm, rfl⟩ | ⟨hadm, -⟩ := stepRequest_cases hreq
    · simp [hadm] at h
    · exact ⟨hfault, admission_eq_none_iff.1 hadm⟩
  case h_2 => cases h
  case h_3 => cases h

theorem stepOnce_of_commit {s : State} {cap : Nat} {p : Payload} {blk : Block} {out : List Symbol} {status : Status}
    (hfault : s.fault = .none) (h : execStep cap p s = .next (s.commit blk out status)) :
    stepOnce cap p s = some (s.commit blk out status, out, status) := by
  simp [stepOnce, h, hfault]

/-- The next STEP meets a healthy block, `q` symbols of the payload's packet written: the payload is admitted. -/
structure State.Drains (p : Payload) (q : Nat) (s : State) : Prop where
  healthy : s.BlockInv
  admitted : s.admits 0 p
  position_eq : s.blk.position p.length = q

namespace State.Drains
variable {s : State} {p : Payload} {q cap : Nat}

theorem le (h : s.Drains p q) : q ≤ 8 * p.length + 1 := by
  rw [← h.position_eq]
  exact (latch_eq_blockAt h.healthy h.admitted).2

theorem admits (h : s.Drains p q) (hcap : cap ≤ s.impl.maxBatch) : s.admits cap p := by
  obtain ⟨hfault, -, hchecks⟩ := h.admitted
  exact ⟨hfault, hcap, hchecks⟩

theorem of_admits (hs : s.BlockInv) (ha : s.admits cap p) : s.Drains p (s.blk.position p.length) := by
  obtain ⟨hfault, -, hchecks⟩ := ha
  exact ⟨hs, ⟨hfault, Nat.zero_le _, hchecks⟩, rfl⟩

/-- A STEP with fewer slots than symbols left pauses, and the packet goes on from the position reached. -/
theorem stepOnce_paused (h : s.Drains p q) (hcap : cap ≤ s.impl.maxBatch) (hlt : q + cap < 8 * p.length + 2) :
    ∃ t, stepOnce cap p s = some (t, ((packetSeq s.profile p).drop q).take cap, .paused) ∧ t.Drains p (q + cap) ∧
      t.profile = s.profile ∧ t.impl = s.impl := by
  have ha := h.admits hcap
  have ⟨hfault, _, hlen, hmax, _⟩ := ha
  obtain ⟨hs, -, rfl⟩ := h
  have hexec := exec_step_paused hs ha hlt
  refine ⟨_, stepOnce_of_commit hfault hexec, ⟨exec_keeps_blockInv hs hexec, ?_, position_blockAt (by omega)⟩, rfl, rfl⟩
  exact ⟨hfault, Nat.zero_le _, hlen, hmax, .inr (blockAt_pkt p _)⟩

/-- A STEP with a slot for every symbol left writes them all and completes. -/
theorem stepOnce_complete (h : s.Drains p q) (hcap : cap ≤ s.impl.maxBatch) (hge : 8 * p.length + 2 ≤ q + cap) :
    ∃ t, stepOnce cap p s = some (t, (packetSeq s.profile p).drop q, .complete) := by
  have ha := h.admits hcap
  obtain ⟨hs, -, rfl⟩ := h
  exact ⟨_, stepOnce_of_commit ha.1 (exec_step_complete hs ha hge)⟩

end State.Drains

theorem drain_cons_eq_some {s u : State} {p : Payload} {cap : Nat} {caps : List Nat} {out : List Symbol}
    {statuses : List Status} :
    drain p (cap :: caps) s = some (u, out, statuses) ↔
      ∃ t first status rest later, stepOnce cap p s = some (t, first, status) ∧
        drain p caps t = some (u, rest, later) ∧ out = first ++ rest ∧ statuses = status :: later := by
  rw [drain]
  constructor
  · intro h
    split at h
    · cases h
    · next t first status hfirst =>
      split at h
      · cases h
      · next u' rest later hrest =>
        cases h
        exact ⟨t, first, status, rest, later, hfirst, hrest, rfl, rfl⟩
  · rintro ⟨t, first, status, rest, later, hfirst, hrest, rfl, rfl⟩
    simp [hfirst, hrest]

theorem drainStatuses_succ_succ (k : Nat) : drainStatuses (k + 2) = .paused :: drainStatuses (k + 1) := by
  simp [drainStatuses, List.replicate_succ]

/-- The first STEP of a drained packet was admitted. -/
theorem drains_of_drain {s t : State} {p : Payload} {caps : List Nat} {out : List Symbol} (hs : s.BlockInv)
    (h : drain p caps s = some (t, out, drainStatuses caps.length)) : s.Drains p (s.blk.position p.length) := by
  cases caps with
  | nil => cases h
  | cons cap caps =>
    obtain ⟨u, first, status, rest, later, hfirst, -⟩ := drain_cons_eq_some.1 h
    exact .of_admits hs (admits_of_stepOnce hfirst)

/-- Whatever the capacities, STEPs that drain a packet from a position write the rest of its sequence. -/
theorem drain_eq_packetSeq_drop {p : Payload} {caps : List Nat} {s t : State} {out : List Symbol} (hs : s.BlockInv)
    (h : drain p caps s = some (t, out, drainStatuses caps.length)) :
    out = (packetSeq s.profile p).drop (s.blk.position p.length) := by
  induction caps generalizing s out with
  | nil => cases h
  | cons cap caps ih =>
    obtain ⟨u, first, status, rest, later, hfirst, hrest, rfl, hstatuses⟩ := drain_cons_eq_some.1 h
    have ha := admits_of_stepOnce hfirst
    have hd := State.Drains.of_admits hs ha
    obtain ⟨-, hcap, -⟩ := ha
    by_cases hlt : s.blk.position p.length + cap < 8 * p.length + 2
    · obtain ⟨t', hpaused, ht', hprof, -⟩ := hd.stepOnce_paused hcap hlt
      cases hfirst.symm.trans hpaused
      cases caps with
      | nil => cases hstatuses
      | cons cap' caps' =>
        cases (drainStatuses_succ_succ caps'.length).symm.trans hstatuses
        rw [ih ht'.healthy hrest, hprof, ht'.position_eq, ← List.drop_drop, List.take_append_drop]
    · obtain ⟨t', hcomplete⟩ := hd.stepOnce_complete hcap (by omega)
      cases hfirst.symm.trans hcomplete
      cases caps with
      | nil =>
        cases hrest
        rw [List.append_nil]
      | cons cap' caps' => cases (drainStatuses_succ_succ caps'.length).symm.trans hstatuses

/-- Settles O24: the drained packet is the whole sequence, which is never that of an empty payload. -/
theorem drainedPacketLength : Obligations.DrainedPacketLength := by
  intro s t p caps out hs hrest h
  obtain ⟨-, -, hlen, -⟩ := (drains_of_drain hs h).admitted
  refine ⟨?_, hlen⟩
  rw [drain_eq_packetSeq_drop hs h, hrest, position_initial, List.drop_zero, packetSeq_length]
  omega

/-- Settles O25: from the construction state both the drain and the one STEP write the sequence from its start. -/
theorem determinismUnderChunking : Obligations.DeterminismUnderChunking := by
  intro s t p caps out hs hrest h
  have hd := drains_of_drain hs h
  obtain rfl := drain_eq_packetSeq_drop hs h
  rw [hrest, position_initial] at hd ⊢
  exact ⟨rfl, fun cap hall hcap => hd.stepOnce_complete hcap (by omega)⟩

/-- STEPs of capacity `c` pause as long as symbols are left, and complete with the last of them. -/
theorem State.Drains.drain_replicate {p : Payload} {c k q : Nat} {s : State} (h : s.Drains p q)
    (hc : c ≤ s.impl.maxBatch) (hlt : q + k * c < 8 * p.length + 2) (hge : 8 * p.length + 2 ≤ q + (k + 1) * c) :
    ∃ t out, drain p (List.replicate (k + 1) c) s = some (t, out, drainStatuses (k + 1)) := by
  induction k generalizing s q with
  | zero =>
    obtain ⟨t, hlast⟩ := h.stepOnce_complete hc (by omega)
    exact ⟨t, _, drain_cons_eq_some.2 ⟨t, _, _, [], [], hlast, rfl, rfl, rfl⟩⟩
  | succ k ih =>
    have hk : (k + 1) * c = k * c + c := Nat.succ_mul k c
    have hk' : (k + 1 + 1) * c = (k + 1) * c + c := Nat.succ_mul (k + 1) c
    obtain ⟨u, hfirst, hu, -, himpl⟩ := h.stepOnce_paused hc (by omega)
    obtain ⟨t, rest, hrest⟩ := ih hu (by rwa [himpl]) (by omega) (by omega)
    exact ⟨t, _, drain_cons_eq_some.2 ⟨u, _, _, rest, _, hfirst, hrest, rfl, drainStatuses_succ_succ k⟩⟩

/-- STEPs with no slots stay where they are. -/
theorem State.Drains.drain_no_slots {p : Payload} {q : Nat} {s : State} (h : s.Drains p q) (k : Nat) :
    ∃ t, drain p (List.replicate k 0) s = some (t, [], List.replicate k .paused) := by
  induction k generalizing s with
  | zero => exact ⟨s, rfl⟩
  | succ k ih =>
    obtain ⟨u, hfirst, hu, -⟩ := h.stepOnce_paused (Nat.zero_le _) (by have := h.le; omega)
    obtain ⟨t, hrest⟩ := ih hu
    exact ⟨t, drain_cons_eq_some.2 ⟨u, _, _, [], _, hfirst, hrest, rfl, rfl⟩⟩

/-- Settles O26: all but the last of `ceil((8N + 2) / c)` STEPs leave symbols to write. -/
theorem numberOfSteps : Obligations.NumberOfSteps := by
  intro s p hs hrest hfault hlen hmax
  have hd : s.Drains p 0 :=
    ⟨hs, ⟨hfault, Nat.zero_le _, hlen, hmax, .inl (by rw [hrest]; rfl)⟩, by rw [hrest, position_initial]⟩
  refine ⟨fun c hc hcap => ?_, hd.drain_no_slots⟩
  have hle := Nat.div_mul_le_self (8 * p.length + 2 + c - 1) c
  have hlt := Nat.lt_div_mul_add (a := 8 * p.length + 2 + c - 1) (b := c) hc
  generalize (8 * p.length + 2 + c - 1) / c = steps at hle hlt ⊢
  cases steps with
  | zero => omega
  | succ k =>
    have hk : (k + 1) * c = k * c + c := Nat.succ_mul k c
    exact hd.drain_replicate hcap (by omega) (by omega)

/-! ### Where a step stops -/

/-- A guarded transition stops with the fault that the register holds, or with its own. -/
theorem guarded_eq_fault {s : State} {next : Result} {r : Fault} :
    guarded s next = .fault r ↔ (s.fault ≠ .none ∧ r = .stuck s.fault) ∨ (s.fault = .none ∧ next = .fault r) := by
  by_cases h : s.fault = .none <;> simp [h, eq_comm]

/-- On a healthy block STEP never reaches the line "not reached" (spec/43_waveform_encoder.md R151). -/
theorem stepRequest_ne_fault {s : State} (hs : s.BlockInv) (cap : Nat) (p : Payload) (r : Fault) :
    stepRequest cap p s ≠ .fault r := by
  intro h
  obtain ⟨-, hstatus, hadm⟩ := stepRequest_stops.2 r h
  obtain ⟨hp, hwf⟩ := Block.wf_latch hs.blk_wf hadm
  obtain ⟨hends, -⟩ | ⟨hends, -⟩ := stepBody_endsOrHolds s.profile cap hp hwf <;> simp [hends] at hstatus

theorem engineInvoke_ne_fault {s : State} (hs : s.BlockInv) (cap : Nat) (r : Fault) :
    engineInvoke cap s ≠ .fault r := by
  intro h
  obtain ⟨hnone, -⟩ | ⟨p, idle, -, heq⟩ := engineInvoke_cases cap s
  · cases hnone.symm.trans h
  · rw [heq] at h
    split at h
    · cases h
    · next hreq => exact stepRequest_ne_fault hs _ p _ hreq
    · cases h

/-- The stuck state of spec/60_exceptions.md R221. -/
def State.StuckWith (s : State) (r : Fault) : Prop := r = .stuck s.fault ∧ s.fault ≠ .none

/-- A guarded transition that does not itself fault stops in the stuck state alone. -/
theorem stuckWith_of_guarded {s : State} {next : Result} {r : Fault} (hnext : next ≠ .fault r)
    (h : guarded s next = .fault r) : s.StuckWith r := by
  obtain ⟨hfault, hr⟩ | ⟨-, hn⟩ := guarded_eq_fault.1 h
  · exact ⟨hr, hfault⟩
  · exact absurd hn hnext

theorem exec_stuckWith {i : Instr} {s : State} {r : Fault} (hs : s.BlockInv) (h : exec i s = .fault r) :
    s.StuckWith r := by
  cases i with
  | construct pin tb => cases h
  | step cap p => exact stuckWith_of_guarded (stepRequest_ne_fault hs cap p r) h
  | reset | set | fill | rand | setPixelColor | setFlags | sendRaw | hostBegin | hostEnd =>
    exact stuckWith_of_guarded (by simp) h

theorem nextRequest_stuckWith {s : State} {r : Fault} (hs : s.BlockInv) (h : nextRequest s = .fault r) :
    s.StuckWith r := by
  unfold nextRequest at h
  split at h
  · exact stuckWith_of_guarded (by simp) h
  · split at h
    · exact stuckWith_of_guarded (by simp) h
    · next i rest _ => exact exec_stuckWith (s := s.consume rest) (hs.of_blockView_eq rfl) h

theorem hostTurn_stuckWith {s : State} {r : Fault} (hs : s.BlockInv) (h : hostTurn s = .fault r) : s.StuckWith r := by
  unfold hostTurn at h
  split at h
  · split at h
    · cases h
    · exact nextRequest_stuckWith hs h
  · exact nextRequest_stuckWith hs h

theorem runTurn_stuckWith {turn : Turn} {s : State} {r : Fault} (hs : s.BlockInv) (h : runTurn turn s = .fault r) :
    s.StuckWith r := by
  cases turn with
  | host => exact hostTurn_stuckWith hs h
  | invoke cap => exact stuckWith_of_guarded (engineInvoke_ne_fault hs cap r) h
  | send | settle | done | fail => exact stuckWith_of_guarded (by simp) h

/-- Settles O55: every turn is guarded, and on a healthy block no STEP faults by itself. -/
theorem noStepFallsThrough : Obligations.NoStepFallsThrough :=
  fun s hs _ h => runTurn_stuckWith (s := s.afterTurn) (hs.of_blockView_eq rfl) h

/-! ### sendRaw -/

/-- While a packet is in flight, sendRaw holds. -/
theorem send_of_inFlight {s : State} {p : Payload} (hb : s.begun = true) (hf : s.inFlight = true) (hp : p ≠ []) :
    s.send (some p) = s.hold (.sendRaw p) := by
  simp [State.send, hb, hf, hp]

theorem execSendRaw_of_no_fault {s : State} (h : s.fault = .none) (payload : Option Payload) :
    exec (.sendRaw payload) s = .next (s.send payload) :=
  guarded_of_no_fault h _

theorem admission_of_long {impl : Impl} {cap : Nat} {p : Payload} (b : Block) (hcap : cap ≤ impl.maxBatch)
    (hlong : impl.maxPayload < p.length) : admission impl cap p b = .payloadTooLong := by
  rw [admission, if_neg (by omega), if_neg (by omega), if_pos hlong]

/-- The engine's STEP raises what its admission finds (spec/43_waveform_encoder.md R150). -/
theorem engineInvoke_of_refused {s : State} {cap : Nat} {p : Payload} {idle : Level} {code : FaultCode}
    (htx : s.tx = some ⟨.packet p, .stepping, idle⟩) (hadm : admission s.impl (s.offer cap) p s.blk = code)
    (hcode : code ≠ .none) : engineInvoke cap s = .next (s.raise code) := by
  have hreq : stepRequest (s.offer cap) p s = .next (s.raise code) := by simp [stepRequest, hadm, hcode]
  simp only [engineInvoke, htx, hreq]
  rw [afterInvoke_of_fault hcode]

/-- Settles O40: what sendRaw does is `send_of_ready` or `send_of_inFlight`, and the engine's first STEP is admitted or
not. -/
theorem sendRawStartsOrHolds : Obligations.SendRawStartsOrHolds := by
  intro p s hfault hbegun hp
  rw [execSendRaw_of_no_fault hfault]
  refine ⟨fun hflight => ?_, fun hflight => ?_, fun t cap hflight hlong h => ?_⟩
  · rw [send_of_ready hbegun hflight hp]
    rfl
  · rw [send_of_inFlight hbegun hflight hp]
    rfl
  · rw [send_of_ready hbegun hflight hp] at h
    cases h
    have hadm : admission (s.startPacket p).impl ((s.startPacket p).offer cap) p (s.startPacket p).blk =
        .payloadTooLong := admission_of_long _ (Nat.min_le_right _ _) hlong
    exact guarded_eq_next.2 ⟨hfault, engineInvoke_of_refused rfl hadm (by decide)⟩

end Sys2Proof.Machine

/-! PROOFS. The command builders: the bits of an opcode byte and of setRandom's packed operand, and the payload that each
command routes through sendRaw. -/

namespace Sys2Proof.Machine

/-! ### Opcode bytes and packed nibbles as `or`s of their parts -/

/-- The low bits of a byte, in their place in a byte, are the byte under a mask. -/
theorem setWidth_lowBits (b : Byte) {k : Nat} (hk : k ≤ 8) :
    (b.extractLsb' 0 k).setWidth 8 = b &&& BitVec.ofNat 8 (2 ^ k - 1) := by
  have hpow : 2 ^ k - 1 < 2 ^ 8 := by
    have := Nat.pow_le_pow_right (n := 2) (by decide) hk
    omega
  have hlow : b.toNat % 2 ^ k < 2 ^ 8 := (Nat.mod_le _ _).trans_lt b.isLt
  apply BitVec.eq_of_toNat_eq
  rw [BitVec.toNat_setWidth, BitVec.extractLsb'_toNat, Nat.shiftRight_zero, Nat.mod_eq_of_lt hlow, BitVec.toNat_and,
    BitVec.toNat_ofNat, Nat.mod_eq_of_lt hpow, Nat.and_two_pow_sub_one_eq_mod]

/-- FLAGS is or'ed into the low bits of the kind's byte (spec/44_command_encoder.md R180). -/
theorem opcodeByte_flagField (kind : BitVec 5) (f : Byte) :
    opcodeByte kind (flagField f) = kind.setWidth 8 <<< 3 ||| (f &&& 0b111#8) :=
  calc opcodeByte kind (flagField f)
      = (kind ++ flagField f).setWidth 8 := (BitVec.setWidth_eq _).symm
    _ = kind.setWidth 8 <<< 3 ||| (flagField f).setWidth 8 := BitVec.setWidth_append_eq_shiftLeft_setWidth_or
    _ = kind.setWidth 8 <<< 3 ||| (f &&& 0b111#8) := congrArg _ (setWidth_lowBits f (by decide))

/-- The packed operand has mask's low nibble above index's (spec/44_command_encoder.md R184). -/
theorem packMaskIndex_eq_append (mask index : Byte) :
    packMaskIndex mask index = (mask.extractLsb' 0 4 ++ index.extractLsb' 0 4 : BitVec 8) :=
  calc packMaskIndex mask index
      = (mask.extractLsb' 0 4).setWidth 8 <<< 4 ||| (index.extractLsb' 0 4).setWidth 8 := by
        rw [setWidth_lowBits mask (by decide), setWidth_lowBits index (by decide)]
        rfl
    _ = (mask.extractLsb' 0 4 ++ index.extractLsb' 0 4).setWidth 8 :=
        BitVec.setWidth_append_eq_shiftLeft_setWidth_or.symm
    _ = mask.extractLsb' 0 4 ++ index.extractLsb' 0 4 := BitVec.setWidth_eq _

/-! ### setFlags -/

theorem exec_setFlags_of_no_fault {s : State} (h : s.fault = .none) (f : Byte) :
    exec (.setFlags f) s = .next (s.putFlags f) :=
  guarded_of_no_fault h _

/-- Bits 7..3 of setFlags' operand are ignored (spec/44_command_encoder.md R180). -/
theorem flagField_and_mask (f : Byte) : flagField (f &&& 0b111#8) = flagField f := by
  have hmask : (0b111#8).extractLsb' 0 3 = BitVec.allOnes 3 := by decide
  rw [flagField, BitVec.extractLsb'_and, hmask, BitVec.and_allOnes, flagField]

/-- Settles O34: setFlags writes one field, which every opcode constant has in its low bits. -/
theorem setFlagsTakesLowBits : Obligations.SetFlagsTakesLowBits := by
  intro f s hfault
  simp only [exec_setFlags_of_no_fault hfault]
  refine ⟨rfl, ?_, fun t h => ?_⟩
  · rw [State.putFlags, State.putFlags, flagField_and_mask]
  · obtain rfl : s.putFlags f = t := Host.Outcome.next.inj h
    exact ⟨opcodeByte_flagField kindSet f, opcodeByte_flagField kindFill f, opcodeByte_flagField kindRand f, rfl, rfl⟩

/-! ### The commands -/

theorem exec_sendRaw_of_ready {s : State} {p : Payload} (hfault : s.fault = .none) (hbegun : s.begun = true)
    (hflight : s.inFlight = false) (hp : p ≠ []) : exec (.sendRaw (some p)) s = .next (s.startPacket p) := by
  rw [execSendRaw_of_no_fault hfault, send_of_ready hbegun hflight hp]

/-- A command that is sendRaw of `p` starts `p`, while begun with nothing in flight. -/
theorem startsPacket_of_eq_sendRaw {i : Instr} {s : State} {p : Payload} (hp : p ≠ [])
    (hi : exec i s = exec (.sendRaw (some p)) s) :
    exec i s = exec (.sendRaw (some p)) s ∧
      (s.fault = .none → s.begun = true → s.inFlight = false → exec i s = .next (s.startPacket p)) :=
  ⟨hi, fun hfault hbegun hflight => hi.trans (exec_sendRaw_of_ready hfault hbegun hflight hp)⟩

theorem exec_set_eq_sendRaw (mask index r g b : Byte) (s : State) :
    exec (.set mask index r g b) s = exec (.sendRaw (some (s.setPayload mask index r g b))) s := rfl

theorem exec_setPixelColor_eq_set (index r g b : Byte) (s : State) :
    exec (.setPixelColor index r g b) s = exec (.set 0xFF#8 index r g b) s := rfl

theorem exec_fill_eq_sendRaw (r g b : Byte) (s : State) :
    exec (.fill r g b) s = exec (.sendRaw (some (s.fillPayload r g b))) s := rfl

theorem exec_rand_eq_sendRaw (mask index r g b : Byte) (s : State) :
    exec (.rand mask index r g b) s = exec (.sendRaw (some (s.randPayload mask index r g b))) s := rfl

/-- RAND's payload with its packed operand written as two nibbles (spec/44_command_encoder.md R184). -/
theorem randPayload_eq (mask index r g b : Byte) (s : State) :
    s.randPayload mask index r g b =
      [0b01001#5 ++ s.flags, (mask.extractLsb' 0 4 ++ index.extractLsb' 0 4 : BitVec 8), r, g, b] := by
  rw [State.randPayload, packMaskIndex_eq_append]
  rfl

/-- Settles O35: the SET command is sendRaw of its payload. -/
theorem setSendsItsPayload : Obligations.SetSendsItsPayload :=
  fun mask index r g b s => startsPacket_of_eq_sendRaw (List.cons_ne_nil _ _) (exec_set_eq_sendRaw mask index r g b s)

/-- Settles O36: setPixelColor is the SET command with mask 0xFF, and starts that command's packet. -/
theorem pixelColorIsSetAllMasked : Obligations.PixelColorIsSetAllMasked :=
  fun index r g b s => ⟨exec_setPixelColor_eq_set index r g b s, (setSendsItsPayload 0xFF#8 index r g b s).2⟩

/-- Settles O37: the FILL command is sendRaw of its payload. -/
theorem fillSendsItsPayload : Obligations.FillSendsItsPayload :=
  fun r g b s => startsPacket_of_eq_sendRaw (List.cons_ne_nil _ _) (exec_fill_eq_sendRaw r g b s)

/-- Settles O38: the RAND command is sendRaw of its payload, whose second byte is the two nibbles. -/
theorem randSendsItsPayload : Obligations.RandSendsItsPayload :=
  fun mask index r g b s => startsPacket_of_eq_sendRaw (List.cons_ne_nil _ _)
    ((exec_rand_eq_sendRaw mask index r g b s).trans (by rw [randPayload_eq]))

end Sys2Proof.Machine

/-! PROOFS. The transmission controller and the engine: the packet that the engine carries to the line, the flight of a
packet, the engine's moves one by one, and the calls that enable and disable the output. -/

namespace Sys2Proof.Machine

/-! ### Turn after turn -/

theorem runTurns_cons_eq_some {turn : Turn} {ts : List Turn} {s u : State} :
    runTurns (turn :: ts) s = some u ↔ ∃ v, runTurn turn s = .next v ∧ runTurns ts v = some u := by
  rw [runTurns]
  cases runTurn turn s <;> simp

theorem runTurns_append {ts ts' : List Turn} {s v : State} (h : runTurns ts s = some v) :
    runTurns (ts ++ ts') s = runTurns ts' v := by
  induction ts generalizing s with
  | nil =>
    cases h
    rfl
  | cons turn ts ih =>
    obtain ⟨w, hw, hrest⟩ := runTurns_cons_eq_some.1 h
    rw [List.cons_append, runTurns, hw]
    exact ih hrest

/-- What every carrying move of the engine keeps, a run of them keeps. -/
theorem runTurns_keeps {P : State → Prop}
    (hstep : ∀ turn s u, turnCarries turn = true → P s → runTurn turn s = .next u → P u) {ts : List Turn} {s u : State}
    (hts : ∀ turn ∈ ts, turnCarries turn = true) (hs : P s) (h : runTurns ts s = some u) : P u := by
  induction ts generalizing s with
  | nil =>
    cases h
    exact hs
  | cons turn ts ih =>
    obtain ⟨v, hv, hrest⟩ := runTurns_cons_eq_some.1 h
    exact ih (fun x hx => hts x (List.mem_cons_of_mem _ hx)) (hstep turn s v (hts turn List.mem_cons_self) hs hv) hrest

/-- A carrying move is the engine's STEP, a segment sent or the settling, and none is made from a fault. -/
theorem runTurn_carrying_cases {turn : Turn} {s u : State} (hturn : turnCarries turn = true)
    (h : runTurn turn s = .next u) :
    s.fault = .none ∧ ((∃ cap, engineInvoke cap s = .next u) ∨ u = s.sendSegment ∨ u = s.settle) := by
  cases turn with
  | invoke cap =>
    obtain ⟨hfault, hinvoke⟩ := guarded_eq_next.1 h
    exact ⟨hfault, .inl ⟨cap, hinvoke⟩⟩
  | send =>
    obtain ⟨hfault, ⟨⟩⟩ := guarded_eq_next.1 h
    exact ⟨hfault, .inr (.inl rfl)⟩
  | settle =>
    obtain ⟨hfault, ⟨⟩⟩ := guarded_eq_next.1 h
    exact ⟨hfault, .inr (.inr rfl)⟩
  | host | done | fail => cases hturn

/-! ### What the line is to carry -/

/-- The symbols of the packet being stepped that no STEP has written yet. -/
def State.unwritten (s : State) : List Symbol :=
  match s.tx with
  | some ⟨.packet p, .stepping, _⟩ => (packetSeq s.profile p).drop (s.blk.position p.length)
  | _ => []

/-- What the line has carried, then what is written and not sent, then what is still to be written: the engine's moves
take a segment from one part to the one before it (spec/45_transmission_controller.md R210). -/
def State.lineRecord (s : State) : List Segment := s.wave ++ s.buf ++ waveOf s.unwritten

theorem unwritten_of_stepping {s : State} {p : Payload} {idle : Level}
    (h : s.tx = some ⟨.packet p, .stepping, idle⟩) :
    s.unwritten = (packetSeq s.profile p).drop (s.blk.position p.length) := by
  simp [State.unwritten, h]

theorem unwritten_of_phase_ne {s : State} {source : TxSource} {phase : TxPhase} {idle : Level}
    (h : s.tx = some ⟨source, phase, idle⟩) (hphase : phase ≠ .stepping) : s.unwritten = [] := by
  unfold State.unwritten
  split
  · next htx =>
    cases h.symm.trans htx
    exact absurd rfl hphase
  · rfl

theorem sendSegment_lineRecord (s : State) : s.sendSegment.lineRecord = s.lineRecord := by
  have hunwritten : s.sendSegment.unwritten = s.unwritten := by
    obtain h | ⟨seg, rest, -, h⟩ := sendSegment_cases s <;> rw [h]
    rfl
  rw [State.lineRecord, sendSegment_keeps_order, hunwritten, State.lineRecord]

theorem settle_lineRecord (s : State) : s.settle.lineRecord = s.lineRecord := by
  obtain h | ⟨source, idle, htx, -, h⟩ := settle_cases s <;> rw [h]
  rw [State.lineRecord, State.lineRecord, unwritten_of_phase_ne htx (by decide),
    unwritten_of_phase_ne (s := { s with line := idle, tx := some ⟨source, .idled, idle⟩ }) rfl (by decide)]

/-- The symbols that the engine's STEP writes are the next ones of its packet (spec/43_waveform_encoder.md R161). -/
theorem engineInvoke_lineRecord {cap : Nat} {s u : State} (hs : s.BlockInv) (hfault : s.fault = .none)
    (h : engineInvoke cap s = .next u) : u.lineRecord = s.lineRecord := by
  obtain ⟨rfl, -⟩ | ⟨p, idle, v, htx, hreq, rfl⟩ := engineInvoke_eq_next_cases h
  · rfl
  obtain ⟨hadm, rfl⟩ | ⟨hadm, -⟩ := stepRequest_cases hreq
  · rw [afterInvoke_of_fault hadm]
    rfl
  have ha : s.admits (s.offer cap) p := ⟨hfault, admission_eq_none_iff.1 hadm⟩
  have hexec : exec (.step (s.offer cap) p) s = .next v := guarded_eq_next.2 ⟨hfault, hreq⟩
  by_cases hlt : s.blk.position p.length + s.offer cap < 8 * p.length + 2
  · obtain rfl := Host.Outcome.next.inj ((exec_step_paused hs ha hlt).symm.trans hexec)
    rw [afterInvoke_of_paused, State.lineRecord, State.lineRecord, unwritten_of_stepping htx,
      unwritten_of_stepping (s := s.commit _ _ _) htx, commit_blk, position_blockAt (by omega), ← List.drop_drop]
    simp [← waveOf_append]
  · obtain rfl := Host.Outcome.next.inj ((exec_step_complete hs ha (by omega)).symm.trans hexec)
    have hdone : ((s.commit Block.initial ((packetSeq s.profile p).drop (s.blk.position p.length))
        .complete).putPhase .draining).tx = some ⟨.packet p, .draining, idle⟩ := by simp [htx]
    rw [afterInvoke_of_complete hfault, State.lineRecord, State.lineRecord, unwritten_of_stepping htx,
      unwritten_of_phase_ne hdone (by decide)]
    simp

/-- A packet's way to the line, as the carrying moves keep it: `record` is all that the line will have carried. -/
structure State.Carries (record : List Segment) (s : State) : Prop where
  healthy : s.BlockInv
  driven : s.DrivenInv
  record_eq : s.lineRecord = record

theorem runTurn_keeps_carries {record : List Segment} {turn : Turn} {s u : State} (hturn : turnCarries turn = true)
    (hs : s.Carries record) (h : runTurn turn s = .next u) : u.Carries record := by
  obtain ⟨hblock, hdriven, hrecord⟩ := hs
  obtain ⟨hfault, ⟨cap, hinvoke⟩ | rfl | rfl⟩ := runTurn_carrying_cases hturn h
  · exact ⟨engineInvoke_keeps_blockInv hblock hinvoke, engineInvoke_keeps_drivenInv hdriven hblock hfault hinvoke,
      (engineInvoke_lineRecord hblock hfault hinvoke).trans hrecord⟩
  · exact ⟨hblock.of_blockView_eq (sendSegment_blockView s), sendSegment_keeps_drivenInv hdriven,
      (sendSegment_lineRecord s).trans hrecord⟩
  · exact ⟨hblock.of_blockView_eq (settle_blockView s), settle_keeps_drivenInv hdriven,
      (settle_lineRecord s).trans hrecord⟩

/-- Settles O51: the carrying moves keep what the line is to carry, which is all still to come at the packet's start and
all sent once its line has settled. -/
theorem packetReachesTheLine : Obligations.PacketReachesTheLine := by
  intro s u ts p idle hs hrest _ htx hts hrun hsettled
  have hstart : s.Carries s.lineRecord := ⟨hs, .of_atRest hrest (by simp [htx]), rfl⟩
  obtain ⟨-, hdriven, hrecord⟩ := runTurns_keeps (fun _ _ _ => runTurn_keeps_carries) hts hstart hrun
  obtain ⟨hline, hbuf⟩ := hdriven.idled _ _ hsettled
  refine ⟨?_, hline, hdriven.at_rest (by simp [hsettled])⟩
  rw [State.lineRecord, State.lineRecord, hbuf, unwritten_of_phase_ne hsettled (by decide), unwritten_of_stepping htx,
    hrest, position_initial, List.drop_zero] at hrecord
  simpa using hrecord

/-! ### The frame of the commands -/

/-- Each command is sendRaw of its payload (spec/44_command_encoder.md R181 to R184). -/
theorem exec_command_eq_sendRaw {i : Instr}
    (hi : ∃ mask index r g b, i = .set mask index r g b ∨ i = .rand mask index r g b ∨ i = .setPixelColor index r g b ∨
      i = .fill r g b ∨ ∃ payload, i = .sendRaw payload) (s : State) :
    ∃ payload, exec i s = exec (.sendRaw payload) s := by
  obtain ⟨mask, index, r, g, b, rfl | rfl | rfl | rfl | ⟨payload, rfl⟩⟩ := hi
  · exact ⟨_, exec_set_eq_sendRaw mask index r g b s⟩
  · exact ⟨_, exec_rand_eq_sendRaw mask index r g b s⟩
  · exact ⟨_, (exec_setPixelColor_eq_set index r g b s).trans (exec_set_eq_sendRaw _ index r g b s)⟩
  · exact ⟨_, exec_fill_eq_sendRaw r g b s⟩
  · exact ⟨payload, rfl⟩

/-- Settles O39: a command is a sendRaw, which ignores the call, holds it, or starts the packet with none in flight. -/
theorem commandFrame : Obligations.CommandFrame := by
  intro i s t hi h
  obtain ⟨payload, hraw⟩ := exec_command_eq_sendRaw hi s
  obtain ⟨-, hsend⟩ := guarded_eq_next.1 (hraw.symm.trans h)
  obtain rfl : s.send payload = t := Host.Outcome.next.inj hsend
  obtain hsend | ⟨p, -, -, -, ⟨-, hsend⟩ | ⟨hflight, hsend⟩⟩ := send_cases payload s <;> rw [hsend]
  · simp
  · simp
  · simp [hflight]

/-! ### The packet in flight -/

/-- The packet `p` is in flight, whatever its phase, with `idle` in force. -/
def State.Flies (p : Payload) (idle : Level) (s : State) : Prop :=
  s.inFlight = true ∧ ∃ phase, s.tx = some ⟨.packet p, phase, idle⟩

namespace State.Flies
variable {s t : State} {p : Payload} {idle : Level} (hs : s.Flies p idle)
include hs

theorem of_eq (hflight : t.inFlight = s.inFlight) (htx : t.tx = s.tx) : t.Flies p idle := by
  rw [State.Flies, hflight, htx]
  exact hs

theorem send (payload : Option Payload) : (s.send payload).Flies p idle := by
  obtain h | ⟨q, -, -, -, ⟨-, h⟩ | ⟨hflight, h⟩⟩ := send_cases payload s <;> rw [h]
  · exact hs
  · exact hs.of_eq rfl rfl
  · simp [hs.1] at hflight

/-- No held call goes on while a packet is in flight. -/
theorem resume_eq (w : HostWait) : s.resume w = s := by
  obtain ⟨hflight, phase, htx⟩ := hs
  cases w <;> simp [State.resume, hflight, htx]

theorem beginCall : s.beginCall.Flies p idle := by
  obtain h | ⟨-, -, h⟩ | ⟨-, -, h⟩ := beginCall_cases s <;> rw [h] <;> exact hs.of_eq rfl rfl

theorem endCall : s.endCall.Flies p idle := by
  obtain h | ⟨-, -, h⟩ | ⟨-, hflight, h⟩ := endCall_cases s <;> rw [h]
  · exact hs
  · exact hs.of_eq rfl rfl
  · simp [hs.1] at hflight

theorem of_stepRequest {cap : Nat} {q : Payload} (h : stepRequest cap q s = .next t) : t.Flies p idle := by
  obtain ⟨-, rfl⟩ | ⟨-, blk, out, status, -, rfl⟩ := stepRequest_cases h <;> exact hs.of_eq rfl rfl

/-- Every instruction but a construction leaves the packet in flight. -/
theorem of_exec {i : Instr} (hi : ∀ pin tb, i ≠ .construct pin tb) (h : exec i s = .next t) : t.Flies p idle := by
  obtain ⟨-, hcall⟩ | ⟨pin, tb, hc, -⟩ := exec_cases h
  · obtain ⟨cap, q, -, hstep⟩ | ⟨-, rfl⟩ | ⟨payload, -, rfl⟩ | ⟨f, -, rfl⟩ | ⟨-, rfl⟩ | ⟨-, rfl⟩ := hcall
    · exact hs.of_stepRequest hstep
    · split <;> exact hs.of_eq rfl rfl
    · exact hs.send payload
    · exact hs.of_eq rfl rfl
    · exact hs.beginCall
    · exact hs.endCall
  · exact absurd hc (hi pin tb)

theorem afterInvoke : s.afterInvoke.Flies p idle := by
  obtain h | ⟨-, -, h⟩ := afterInvoke_cases s <;> rw [h]
  · exact hs
  · obtain ⟨hflight, phase, htx⟩ := hs
    exact ⟨hflight, .draining, by simp [htx]⟩

theorem of_engineInvoke {cap : Nat} (h : engineInvoke cap s = .next t) : t.Flies p idle := by
  obtain ⟨rfl, -⟩ | ⟨q, idle', u, -, hstep, rfl⟩ := engineInvoke_eq_next_cases h
  · exact hs
  · exact (hs.of_stepRequest hstep).afterInvoke

theorem sendSegment : s.sendSegment.Flies p idle := by
  obtain h | ⟨seg, rest, -, h⟩ := sendSegment_cases s <;> rw [h] <;> exact hs.of_eq rfl rfl

theorem settle : s.settle.Flies p idle := by
  obtain h | ⟨source, idle', htx, -, h⟩ := settle_cases s <;> rw [h]
  · exact hs
  · obtain ⟨hflight, phase, hp⟩ := hs
    cases hp.symm.trans htx
    exact ⟨hflight, .idled, rfl⟩

/-- The done event ends the flight of a packet whose line has settled, and no other (spec/45_transmission_controller.md
R209). -/
theorem doneEvent_flies_or_ends :
    s.doneEvent.Flies p idle ∨
      s.tx = some ⟨.packet p, .idled, idle⟩ ∧ s.doneEvent = { s with inFlight := false, tx := none } := by
  obtain h | ⟨q, idle', htx, h⟩ | ⟨idle', htx, h⟩ := doneEvent_cases s
  · exact .inl (by rwa [h])
  · obtain ⟨-, phase, hp⟩ := hs
    cases hp.symm.trans htx
    exact .inr ⟨htx, h⟩
  · obtain ⟨-, phase, hp⟩ := hs
    cases hp.symm.trans htx

theorem txFail : s.txFail.Flies p idle := by
  obtain h | ⟨-, h⟩ := txFail_cases s <;> rw [h] <;> exact hs.of_eq rfl rfl

end State.Flies

/-- Agreeing with the host, the engine's packet is in flight (spec/10_state.md R38). -/
theorem State.HostInv.flies {s : State} {p : Payload} {phase : TxPhase} {idle : Level} (hs : s.HostInv)
    (htx : s.tx = some ⟨.packet p, phase, idle⟩) : s.Flies p idle :=
  ⟨by simp [hs.in_flight, State.packetTx, htx], phase, htx⟩

/-- Settles O42: every call of the host but a construction, and every move of the engine but the done event, leaves the
packet in flight. -/
theorem atMostOneInFlight : Obligations.AtMostOneInFlight := by
  intro s t p phase idle hhost htx h
  have hturn : s.afterTurn.Flies p idle := (hhost.flies htx).of_eq rfl rfl
  have stays : t.Flies p idle → ∃ phase', t.tx = some ⟨.packet p, phase', idle⟩ ∧ t.inFlight = true :=
    fun ⟨hflight, phase', htx'⟩ => ⟨phase', htx', hflight⟩
  obtain ⟨hnext, hcall⟩ | ⟨-, hengine⟩ := step_cases h
  · obtain ⟨-, w, -, rfl⟩ | ⟨-, -, rfl⟩ | ⟨-, i, rest, hdec, hexec⟩ := hcall
    · exact .inl (stays (by rwa [hturn.resume_eq w]))
    · exact .inl (stays hturn)
    · by_cases hi : ∃ pin tb, i = .construct pin tb
      · obtain ⟨pin, tb, rfl⟩ := hi
        exact .inr (.inr ⟨hnext, pin, tb, rest, hdec⟩)
      · have hread : (s.afterTurn.consume rest).Flies p idle := hturn.of_eq rfl rfl
        exact .inl (stays (hread.of_exec (by simpa using hi) hexec))
  · obtain ⟨cap, -, hinvoke⟩ | ⟨-, rfl⟩ | ⟨-, rfl⟩ | ⟨hnext, rfl⟩ | ⟨-, rfl⟩ := hengine
    · exact .inl (stays (hturn.of_engineInvoke hinvoke))
    · exact .inl (stays hturn.sendSegment)
    · exact .inl (stays hturn.settle)
    · obtain hflies | ⟨hidled, hdone⟩ := hturn.doneEvent_flies_or_ends
      · exact .inl (stays hflies)
      · cases htx.symm.trans hidled
        rw [hdone]
        exact .inr (.inl ⟨hnext, rfl, rfl, rfl⟩)
    · exact .inl (stays hturn.txFail)

/-! ### The engine's moves one by one -/

section Moves
variable {s : State}

theorem runTurn_send_of_cons {seg : Segment} {rest : List Segment} (hfault : s.fault = .none)
    (hbuf : s.buf = seg :: rest) :
    runTurn .send s = .next { s with line := seg.level, wave := s.wave ++ [seg], buf := rest } := by
  simp [runTurn, hfault, State.sendSegment, hbuf]

theorem runTurn_settle_of_draining {source : TxSource} {idle : Level} (hfault : s.fault = .none)
    (htx : s.tx = some ⟨source, .draining, idle⟩) (hbuf : s.buf = []) :
    runTurn .settle s = .next { s with line := idle, tx := some ⟨source, .idled, idle⟩ } := by
  simp [runTurn, hfault, State.settle, htx, hbuf]

/-- While a segment is unsent the line does not settle. -/
theorem runTurn_settle_of_unsent {source : TxSource} {idle : Level} (hfault : s.fault = .none)
    (htx : s.tx = some ⟨source, .draining, idle⟩) (hbuf : s.buf ≠ []) : runTurn .settle s = .next s := by
  simp [runTurn, hfault, State.settle, htx, hbuf]

theorem runTurn_done_of_packet {p : Payload} {idle : Level} (hfault : s.fault = .none)
    (htx : s.tx = some ⟨.packet p, .idled, idle⟩) :
    runTurn .done s = .next { s with inFlight := false, tx := none } := by
  simp [runTurn, hfault, State.doneEvent, htx]

theorem runTurn_done_of_dummy {idle : Level} (hfault : s.fault = .none)
    (htx : s.tx = some ⟨.dummy, .idled, idle⟩) : runTurn .done s = .next { s with tx := none } := by
  simp [runTurn, hfault, State.doneEvent, htx]

/-- Before the line has settled the done event does nothing. -/
theorem doneEvent_of_phase_ne {source : TxSource} {phase : TxPhase} {idle : Level}
    (htx : s.tx = some ⟨source, phase, idle⟩) (hphase : phase ≠ .idled) : s.doneEvent = s := by
  obtain h | ⟨p, idle', hp, -⟩ | ⟨idle', hd, -⟩ := doneEvent_cases s
  · exact h
  · cases htx.symm.trans hp
    exact absurd rfl hphase
  · cases htx.symm.trans hd
    exact absurd rfl hphase

/-- A done event that ends a flight ends that of a packet whose line has settled. -/
theorem tx_of_doneEvent_ends_flight (hflight : s.inFlight = true) (hend : s.doneEvent.inFlight = false) :
    ∃ p idle, s.tx = some ⟨.packet p, .idled, idle⟩ := by
  obtain h | ⟨p, idle, htx, -⟩ | ⟨idle, -, h⟩ := doneEvent_cases s
  · simp [h, hflight] at hend
  · exact ⟨p, idle, htx⟩
  · simp [h, hflight] at hend

/-- With a capacity within the bound, the engine's turn is one STEP with its packet's payload. -/
theorem engineInvoke_of_stepRequest {t : State} {cap : Nat} {p : Payload} {idle : Level}
    (htx : s.tx = some ⟨.packet p, .stepping, idle⟩) (hcap : cap ≤ s.impl.maxBatch)
    (h : stepRequest cap p s = .next t) : engineInvoke cap s = .next t.afterInvoke := by
  have hoffer : s.offer cap = cap := Nat.min_eq_left hcap
  simp [engineInvoke, htx, hoffer, h]

/-- Of a packet that is not stepped the engine invokes no STEP (spec/45_transmission_controller.md R208). -/
theorem engineInvoke_of_phase_ne {source : TxSource} {phase : TxPhase} {idle : Level} (cap : Nat)
    (htx : s.tx = some ⟨source, phase, idle⟩) (hphase : phase ≠ .stepping) : engineInvoke cap s = .next s := by
  obtain ⟨h, -⟩ | ⟨p, idle', hp, -⟩ := engineInvoke_cases cap s
  · exact h
  · cases htx.symm.trans hp
    exact absurd rfl hphase

theorem stepRequest_tx {t : State} {cap : Nat} {p : Payload} (h : stepRequest cap p s = .next t) : t.tx = s.tx := by
  obtain ⟨-, rfl⟩ | ⟨-, blk, out, status, -, rfl⟩ := stepRequest_cases h <;> rfl

end Moves

/-- Settles O48: what the engine does after its STEP turns on the fault register and the response alone. -/
theorem engineInvokesStep : Obligations.EngineInvokesStep := by
  intro s t cap p idle hfault htx hcap h
  have hreq : stepRequest cap p s = .next t := (guarded_eq_next.1 h).2
  have hturn : runTurn (.invoke cap) s = .next t.afterInvoke :=
    guarded_eq_next.2 ⟨hfault, engineInvoke_of_stepRequest htx hcap hreq⟩
  refine ⟨fun hraised => ?_, fun _ hpaused => ?_, fun hnone hcomplete => ⟨?_, fun c => ?_⟩⟩
  · rw [hturn, afterInvoke_of_fault hraised]
  · rw [hturn, State.afterInvoke, if_neg (by simp [hpaused])]
  · have htx' : t.tx = some ⟨.packet p, .stepping, idle⟩ := (stepRequest_tx hreq).trans htx
    rw [hturn, State.afterInvoke, if_pos (by simp [hcomplete, hnone]), State.putPhase, htx']
    rfl
  · exact guarded_eq_next.2 ⟨hnone, engineInvoke_of_phase_ne c rfl (by decide)⟩

/-- Settles O49: the sending and the settling, each by the state of the buffer. -/
theorem lineFollowsTheBuffer : Obligations.LineFollowsTheBuffer :=
  ⟨fun _ _ _ => runTurn_send_of_cons,
    fun _ _ _ hfault htx => ⟨runTurn_settle_of_unsent hfault htx, runTurn_settle_of_draining hfault htx⟩⟩

/-- Settles O50: the event takes effect in the idled phase alone, which the controller's invariant describes. -/
theorem doneEventEndsFlight : Obligations.DoneEventEndsFlight := by
  intro s hfault
  refine ⟨fun p idle => runTurn_done_of_packet hfault, fun source phase idle htx hphase => ?_,
    fun hdriven t hflight h hend => ?_⟩
  · exact guarded_eq_next.2 ⟨hfault, by rw [doneEvent_of_phase_ne htx hphase]⟩
  · obtain ⟨-, ⟨⟩⟩ := guarded_eq_next.1 h
    obtain ⟨p, idle, htx⟩ := tx_of_doneEvent_ends_flight hflight hend
    obtain ⟨rfl, hbuf⟩ := hdriven.idled _ _ htx
    exact ⟨hdriven.at_rest (by simp [htx]), hbuf, p, htx⟩

/-! ### The output enabled and disabled -/

theorem afterFail_of_cons {s : State} {b : Bool} {fs : List Bool} (h : s.fails = b :: fs) :
    s.afterFail = { s with fails := fs } := by
  simp [State.afterFail, h]

/-- Past the end of the listed answers a free value is drawn (log 4). -/
theorem afterFail_of_nil {s : State} (h : s.fails = []) : s.afterFail = { s with seq := s.seq + 1 } := by
  simp [State.afterFail, h]

theorem nextFail_of_nil {s : State} (h : s.fails = []) : s.nextFail = Config.freeFail s.seq := by
  simp [State.nextFail, h]

/-- begin while not begun does as the enabling answers (spec/45_transmission_controller.md R200, R212). -/
theorem exec_begin_of_not_begun {s : State} (hfault : s.fault = .none) (hbegun : s.begun = false) :
    exec .hostBegin s = .next (if s.nextFail then s.afterFail.raise .hwFail else s.afterFail.enabled) := by
  refine guarded_eq_next.2 ⟨hfault, ?_⟩
  simp [State.beginCall, hbegun]

/-- Settles O43: the answer is the list's next one, and past its end a free value. -/
theorem beginEnables : Obligations.BeginEnables := by
  intro s hfault hbegun
  rw [exec_begin_of_not_begun hfault hbegun]
  refine ⟨fun fs hfails => ?_, fun fs hfails => ?_, fun hfails => ?_⟩
  · rw [nextFail_of_cons hfails, afterFail_of_cons hfails]
    rfl
  · rw [nextFail_of_cons hfails, afterFail_of_cons hfails]
    rfl
  · rw [nextFail_of_nil hfails, afterFail_of_nil hfails]
    rfl

/-- Once its dummy transmission is done, end does as the disabling answers (spec/45_transmission_controller.md R201,
R212). -/
theorem resume_dummyDone_of_no_tx {s : State} (htx : s.tx = none) :
    s.resume .dummyDone = if s.nextFail then s.afterFail.raise .hwFail else s.afterFail.disabled := by
  simp [State.resume, htx]

/-- Settles O47: end's wait is over and the disabling fails; a transmission fails. -/
theorem hardwareFailures : Obligations.HardwareFailures := by
  constructor
  · intro s ts fs hfault hwait htx hturns hfails
    rw [step_of_held hfault hwait (nextTurn_of_cons hturns), resume_dummyDone_of_no_tx (s := s.afterTurn) htx,
      nextFail_of_cons (s := s.afterTurn) hfails, afterFail_of_cons (s := s.afterTurn) hfails, afterTurn_of_cons hturns]
    rfl
  · intro s tx hfault htx
    refine guarded_eq_next.2 ⟨hfault, ?_⟩
    simp [State.txFail, htx, State.raise]

/-- One sending for each written segment sends them all, in order. -/
theorem runTurns_send_all {s : State} (hfault : s.fault = .none) :
    ∃ level, runTurns (List.replicate s.buf.length .send) s =
      some { s with line := level, wave := s.wave ++ s.buf, buf := [] } := by
  generalize hbuf : s.buf = buf
  induction buf generalizing s with
  | nil =>
    refine ⟨s.line, congrArg some ?_⟩
    rw [List.append_nil, ← hbuf]
  | cons seg rest ih =>
    obtain ⟨level, hrest⟩ :=
      ih (s := { s with line := seg.level, wave := s.wave ++ [seg], buf := rest }) hfault rfl
    refine ⟨level, runTurns_cons_eq_some.2 ⟨_, runTurn_send_of_cons hfault hbuf, ?_⟩⟩
    simpa using hrest

/-- end while begun, with nothing in flight, starts its dummy transmission (spec/45_transmission_controller.md R201). -/
theorem exec_end_of_ready {s : State} (hfault : s.fault = .none) (hbegun : s.begun = true)
    (hflight : s.inFlight = false) : exec .hostEnd s = .next s.startDummy := by
  refine guarded_eq_next.2 ⟨hfault, ?_⟩
  simp [State.endCall, hbegun, hflight]

/-- With end's dummy transmission done, the host's turn disables the output where the disabling succeeds. -/
theorem runTurn_host_disables {s : State} {fs : List Bool} (hfault : s.fault = .none) (hwait : s.wait = some .dummyDone)
    (htx : s.tx = none) (hfails : s.fails = false :: fs) :
    runTurn .host s = .next { s with fails := fs, begun := false, wait := none } := by
  have hheld : runTurn .host s = .next (s.resume .dummyDone) := by simp [runTurn, hostTurn, hwait, hfault]
  rw [hheld, resume_dummyDone_of_no_tx htx, nextFail_of_cons hfails, afterFail_of_cons hfails]
  rfl

/-- The turns that take end from its dummy's last segment to its return (spec/45_transmission_controller.md R201, R209,
R211). -/
theorem runTurns_finish_end {s : State} {idle : Level} {fs : List Bool} (hfault : s.fault = .none)
    (htx : s.tx = some ⟨.dummy, .draining, idle⟩) (hbuf : s.buf = []) (hwait : s.wait = some .dummyDone)
    (hfails : s.fails = false :: fs) :
    runTurns [.settle, .done, .host] s =
      some { s with line := idle, tx := none, fails := fs, begun := false, wait := none } := by
  refine runTurns_cons_eq_some.2 ⟨_, runTurn_settle_of_draining hfault htx hbuf, ?_⟩
  refine runTurns_cons_eq_some.2 ⟨_, runTurn_done_of_dummy hfault rfl, ?_⟩
  exact runTurns_cons_eq_some.2 ⟨_, runTurn_host_disables hfault hwait rfl hfails, rfl⟩

/-- Settles O46: the sendings empty the buffer, and the last three turns end the call. -/
theorem endSequence : Obligations.EndSequence := by
  intro s t fs hfault hbegun hflight hfails h
  obtain rfl := Host.Outcome.next.inj ((exec_end_of_ready hfault hbegun hflight).symm.trans h)
  obtain ⟨level, hsent⟩ := runTurns_send_all (s := s.startDummy) hfault
  refine ⟨_, (runTurns_append hsent).trans (runTurns_finish_end hfault rfl rfl rfl hfails), ?_⟩
  simp [hfault, hflight]

end Sys2Proof.Machine

/-! PROOFS. The exceptions: the code that each of STEP's admission checks raises, the calls that are ignored, end refused
while a packet is in flight, and the step that runs the host's request. -/

namespace Sys2Proof.Machine

/-! ### STEP's admission checks, in order -/

section Admission
variable {impl : Impl} {cap : Nat} {p : Payload} (b : Block)

theorem admission_of_cap_above (hcap : impl.maxBatch < cap) : admission impl cap p b = .capOutOfRange :=
  if_pos hcap

theorem admission_of_empty (hcap : cap ≤ impl.maxBatch) : admission impl cap [] b = .emptyPayload := by
  rw [admission, if_neg (by omega), if_pos List.length_nil]

theorem admission_of_other_latched {b : Block} {q : Payload} (hcap : cap ≤ impl.maxBatch) (hp : p ≠ [])
    (hlen : p.length ≤ impl.maxPayload) (hlatch : b.pkt = some q) (hq : q ≠ p) :
    admission impl cap p b = .payloadChanged := by
  have hempty : ¬ p.length = 0 := by simpa using hp
  rw [admission, if_neg (by omega), if_neg hempty, if_neg (by omega), if_pos (by simp [hlatch, hq])]

end Admission

/-- A STEP that is not admitted raises what its admission finds (spec/43_waveform_encoder.md R150). -/
theorem exec_step_of_refused {s : State} {cap : Nat} {p : Payload} {code : FaultCode} (hfault : s.fault = .none)
    (hadm : admission s.impl cap p s.blk = code) (hcode : code ≠ .none) :
    exec (.step cap p) s = .next (s.raise code) := by
  refine guarded_eq_next.2 ⟨hfault, ?_⟩
  simp [stepRequest, hadm, hcode]

/-- With no packet in flight RESET returns the block to its construction state (spec/43_waveform_encoder.md R156). -/
theorem exec_reset_of_not_inFlight {s : State} (hfault : s.fault = .none) (hflight : s.inFlight = false) :
    exec .reset s = .next s.resetBlock := by
  refine guarded_eq_next.2 ⟨hfault, ?_⟩
  simp [hflight]

/-- Settles O19: a check raises its code where those before it pass; an admitted STEP commits its body's result. -/
theorem stepAdmissionOrder : Obligations.StepAdmissionOrder := by
  intro s cap p hfault
  refine ⟨fun hcap => ?_, fun hcap hempty => ?_, fun hcap _ hlong => ?_, fun q hcap hp hlen hlatch hq => ?_,
    fun hs ha => ?_, fun hflight => ?_⟩
  · exact exec_step_of_refused hfault (admission_of_cap_above s.blk hcap) (by decide)
  · subst hempty
    exact exec_step_of_refused hfault (admission_of_empty s.blk hcap) (by decide)
  · exact exec_step_of_refused hfault (admission_of_long s.blk hcap hlong) (by decide)
  · exact exec_step_of_refused hfault (admission_of_other_latched hcap hp hlen hlatch hq) (by decide)
  · obtain ⟨blk, out, status, -, hexec⟩ := exec_step_of_admits hs ha
    exact ⟨_, hexec, hfault⟩
  · exact ⟨_, exec_reset_of_not_inFlight hfault hflight, hfault⟩

/-! ### The ignored calls -/

theorem send_of_empty {payload : Option Payload} (s : State) (h : payload = none ∨ payload = some []) :
    s.send payload = s := by
  simp [State.send, h]

theorem send_of_not_begun {s : State} (hbegun : s.begun = false) (payload : Option Payload) : s.send payload = s :=
  if_pos hbegun

theorem exec_begin_of_begun {s : State} (hfault : s.fault = .none) (hbegun : s.begun = true) :
    exec .hostBegin s = .next s :=
  guarded_eq_next.2 ⟨hfault, congrArg _ (if_pos hbegun)⟩

theorem exec_end_of_not_begun {s : State} (hfault : s.fault = .none) (hbegun : s.begun = false) :
    exec .hostEnd s = .next s :=
  guarded_eq_next.2 ⟨hfault, congrArg _ (if_pos hbegun)⟩

/-- Settles O31: the commands are sendRaws, and sendRaw ignores an empty payload, and any while not begun. -/
theorem ignoredCallsHaveNoEffect : Obligations.IgnoredCallsHaveNoEffect := by
  intro s hfault
  refine ⟨?_, ?_, fun hbegun => ?_, exec_begin_of_begun hfault⟩
  · rw [execSendRaw_of_no_fault hfault, send_of_empty s (.inl rfl)]
  · rw [execSendRaw_of_no_fault hfault, send_of_empty s (.inr rfl)]
  · have hraw (payload : Option Payload) : exec (.sendRaw payload) s = .next s := by
      rw [execSendRaw_of_no_fault hfault, send_of_not_begun hbegun]
    refine ⟨hraw, fun mask index r g b => ?_, fun index r g b => ?_, fun r g b => ?_, fun mask index r g b => ?_,
      exec_end_of_not_begun hfault hbegun⟩
    · rw [exec_set_eq_sendRaw, hraw]
    · rw [exec_setPixelColor_eq_set, exec_set_eq_sendRaw, hraw]
    · rw [exec_fill_eq_sendRaw, hraw]
    · rw [exec_rand_eq_sendRaw, hraw]

/-! ### end in flight, and the host's request -/

/-- Settles O45: of end's three cases, the one while begun with a packet in flight. -/
theorem endInFlightRaises : Obligations.EndInFlightRaises := by
  intro s hfault hbegun hflight
  have hcall : s.endCall = s.raise .endInFlight := by simp [State.endCall, hbegun, hflight]
  exact guarded_eq_next.2 ⟨hfault, congrArg _ hcall⟩

/-- Settles O52: taking the turn leaves the inbox and the wait, on which the host's turn rests. -/
theorem stepRunsTheRequest : Obligations.StepRunsTheRequest := by
  intro s i rest hturn hwait hdecode
  rw [step, hturn]
  exact hostTurn_of_decode (s := s.afterTurn) hwait hdecode

end Sys2Proof.Machine

/-! PROOFS. RESET with no packet in flight. -/

namespace Sys2Proof.Machine

/-- The block that a first RESET leaves is the one that a second puts in its place. -/
theorem resetBlock_idem (s : State) : s.resetBlock.resetBlock = s.resetBlock := rfl

/-- Settles O27: RESET puts the construction state's block in place, and still has no fault and no packet in flight
before it for the second time. -/
theorem resetRestoresBlock : Obligations.ResetRestoresBlock := by
  intro s hfault hflight
  have hsecond : exec .reset s.resetBlock = .next s.resetBlock.resetBlock :=
    exec_reset_of_not_inFlight (s := s.resetBlock) hfault hflight
  rw [resetBlock_idem] at hsecond
  exact ⟨exec_reset_of_not_inFlight hfault hflight, hsecond⟩

end Sys2Proof.Machine

/-! PROOFS. The decoder reads back what the encoder writes. -/

namespace Sys2Proof

/-- Whatever FLAGS holds, a request's first byte selects its operation. -/
theorem selectorOf_firstByte (flags : BitVec 3) (i : Instr) : selectorOf (firstByte flags i) = some i.selector := by
  cases i with
  | step cap p => exact Laws.FirstByte.step cap p flags
  | reset => exact Laws.FirstByte.reset flags
  | set mask index r g b => exact Laws.FirstByte.set mask index r g b flags
  | fill r g b => exact Laws.FirstByte.fill r g b flags
  | rand mask index r g b => exact Laws.FirstByte.rand mask index r g b flags
  | setPixelColor index r g b => exact Laws.FirstByte.setPixelColor index r g b flags
  | setFlags f => exact Laws.FirstByte.setFlags f flags
  | sendRaw payload => exact Laws.FirstByte.sendRaw payload flags
  | hostBegin => exact Laws.FirstByte.hostBegin flags
  | hostEnd => exact Laws.FirstByte.hostEnd flags
  | construct pin tb => exact Laws.FirstByte.construct pin tb flags

/-- STEP's cap and payload read back. -/
theorem readStep_operandBytes (cap : Nat) (p : Payload) (rest : List Byte) :
    readStep (operandBytes (.step cap p) ++ rest) = some (.step cap p, rest) := by
  rw [operandBytes, List.append_assoc, readStep, readNumber_writeNumber]
  simp only [readBuffer_writeBuffer]

/-- sendRaw's payload reads back. -/
theorem readSendRaw_operandBytes (p : Payload) (rest : List Byte) :
    readSendRaw (operandBytes (.sendRaw (some p)) ++ rest) = some (.sendRaw (some p), rest) := by
  rw [operandBytes, readSendRaw, readBuffer_writeBuffer]

/-- construct's pin and TB read back, as a pin fits its field. -/
theorem readConstruct_operandBytes (pin : BitVec 32) (tb : Byte) (rest : List Byte) :
    readConstruct (operandBytes (.construct pin tb) ++ rest) = some (.construct pin tb, rest) := by
  rw [operandBytes, List.append_assoc, readConstruct, readField_writeField pin.isLt]
  simp

/-- A request's operands read back, for the operation it is. -/
theorem readOperands_operandBytes (i : Instr) (rest : List Byte) :
    readOperands i.selector (operandBytes i ++ rest) = some (i, rest) := by
  cases i with
  | step cap p => exact readStep_operandBytes cap p rest
  | construct pin tb => exact readConstruct_operandBytes pin tb rest
  | sendRaw payload =>
    cases payload with
    | none => rfl
    | some p => exact readSendRaw_operandBytes p rest
  | reset | set | fill | rand | setPixelColor | setFlags | hostBegin | hostEnd => rfl

/-- Settles O1: the first byte selects the operation, and that operation's operands read back. -/
theorem decodeEncodeRoundTrip : Obligations.DecodeEncodeRoundTrip := by
  intro flags i rest
  rw [encode, List.cons_append, decode, selectorOf_firstByte]
  simp only [readOperands_operandBytes]

end Sys2Proof

/-! PROOFS. The fault register: what a faulted machine still does, what raising a fault leaves, and the faults and the
state that a construction, a RESET in flight and end's first part answer; and the nibbles of setRandom's packed
operand. -/

namespace Sys2Proof.Machine

/-! ### The faulted machine -/

/-- On a faulted machine every instruction but a construction is stuck (spec/60_exceptions.md R221). -/
theorem exec_of_fault {i : Instr} {s : State} (hfault : s.fault ≠ .none) (hi : ∀ pin tb, i ≠ .construct pin tb) :
    exec i s = .fault (.stuck s.fault) := by
  cases i with
  | construct pin tb => exact absurd rfl (hi pin tb)
  | step | reset | set | fill | rand | setPixelColor | setFlags | sendRaw | hostBegin | hostEnd =>
    exact guarded_of_fault hfault _

/-- Settles O29: of the moves a step makes, only the host's next request is not guarded, and of the requests only a
construction. -/
theorem onlyConstructionClearsFault : Obligations.OnlyConstructionClearsFault := by
  refine ⟨fun i s => exec_of_fault, fun s t hfault h => ?_⟩
  obtain ⟨hturn, ⟨hnone, -⟩ | ⟨hnone, -⟩ | ⟨-, i, rest, hdec, hexec⟩⟩ | ⟨hnone, -⟩ := step_cases h
  · exact absurd hnone hfault
  · exact absurd hnone hfault
  · obtain ⟨hnone, -⟩ | ⟨pin, tb, rfl, -⟩ := exec_cases hexec
    · exact absurd hnone hfault
    · exact ⟨hturn, pin, tb, rest, hdec⟩
  · exact absurd hnone hfault

/-! ### Raising a fault -/

/-- The state without its fault register and without the requests and choices of the environment: block, host side and
engine. -/
def State.machineView (s : State) : State :=
  { s with fault := .none, inbox := [], turns := [], fails := [], dummies := [], seq := 0 }

theorem machineView_eq_iff {s t : State} :
    t.machineView = s.machineView ↔
      t.pin = s.pin ∧ t.tb = s.tb ∧ t.profile = s.profile ∧ t.impl = s.impl ∧ t.blk = s.blk ∧ t.dst = s.dst ∧
        t.resp = s.resp ∧ t.flags = s.flags ∧ t.begun = s.begun ∧ t.inFlight = s.inFlight ∧
        t.idleLevel = s.idleLevel ∧ t.line = s.line ∧ t.wait = s.wait ∧ t.tx = s.tx ∧ t.buf = s.buf ∧
        t.wave = s.wave := by
  simp [State.machineView]

/-- Going from `s` to `t`, a fault is raised alone: with one in `t`, block, host side and engine are as in `s`
(spec/60_exceptions.md R221). -/
def State.FaultsPrecisely (s t : State) : Prop := t.fault ≠ .none → t.machineView = s.machineView

section Precise
variable {s t : State}

theorem State.FaultsPrecisely.of_no_fault (h : t.fault = .none) : s.FaultsPrecisely t := fun hne => absurd h hne

theorem raise_faultsPrecisely (code : FaultCode) (s : State) : s.FaultsPrecisely (s.raise code) := fun _ => rfl

/-- A failed enabling, disabling or allocation uses its answer up, which is the environment's. -/
theorem raise_afterFail_faultsPrecisely (code : FaultCode) (s : State) :
    s.FaultsPrecisely (s.afterFail.raise code) := fun _ => rfl

theorem constructCall_faultsPrecisely (pin : BitVec 32) (tb : Byte) (s : State) :
    s.FaultsPrecisely (s.constructCall pin tb) := by
  obtain ⟨-, h⟩ | ⟨-, -, h⟩ | ⟨-, -, h⟩ := constructCall_cases pin tb s <;> rw [h]
  · exact raise_faultsPrecisely _ s
  · exact raise_afterFail_faultsPrecisely _ s
  · exact .of_no_fault (fresh_fault ..)

variable (hs : s.fault = .none)
include hs

theorem resume_faultsPrecisely (w : HostWait) : s.FaultsPrecisely (s.resume w) := by
  obtain h | ⟨p, -, -, h⟩ | ⟨-, -, ⟨-, h⟩ | ⟨-, h⟩⟩ := resume_cases w s <;> rw [h]
  · exact .of_no_fault hs
  · exact .of_no_fault hs
  · exact raise_afterFail_faultsPrecisely _ s
  · exact .of_no_fault hs

theorem beginCall_faultsPrecisely : s.FaultsPrecisely s.beginCall := by
  obtain h | ⟨-, -, h⟩ | ⟨-, -, h⟩ := beginCall_cases s <;> rw [h]
  · exact .of_no_fault hs
  · exact raise_afterFail_faultsPrecisely _ s
  · exact .of_no_fault hs

theorem endCall_faultsPrecisely : s.FaultsPrecisely s.endCall := by
  obtain h | ⟨-, -, h⟩ | ⟨-, -, h⟩ := endCall_cases s <;> rw [h]
  · exact .of_no_fault hs
  · exact raise_faultsPrecisely _ s
  · exact .of_no_fault hs

theorem txFail_faultsPrecisely : s.FaultsPrecisely s.txFail := by
  obtain h | ⟨-, h⟩ := txFail_cases s <;> rw [h]
  · exact .of_no_fault hs
  · exact raise_faultsPrecisely _ s

/-- A STEP raises what its admission finds before it touches the block (spec/43_waveform_encoder.md R150). -/
theorem stepRequest_faultsPrecisely {cap : Nat} {p : Payload} (h : stepRequest cap p s = .next t) :
    s.FaultsPrecisely t := by
  obtain ⟨-, rfl⟩ | ⟨-, blk, out, status, -, rfl⟩ := stepRequest_cases h
  · exact raise_faultsPrecisely _ s
  · exact .of_no_fault hs

theorem engineInvoke_faultsPrecisely {cap : Nat} (h : engineInvoke cap s = .next t) : s.FaultsPrecisely t := by
  obtain ⟨rfl, -⟩ | ⟨p, idle, u, -, hreq, rfl⟩ := engineInvoke_eq_next_cases h
  · exact .of_no_fault hs
  · intro hfault
    rw [afterInvoke_fault] at hfault
    rw [afterInvoke_of_fault hfault]
    exact stepRequest_faultsPrecisely hs hreq hfault

theorem exec_faultsPrecisely {i : Instr} (h : exec i s = .next t) : s.FaultsPrecisely t := by
  obtain ⟨-, hcall⟩ | ⟨pin, tb, -, rfl⟩ := exec_cases h
  · obtain ⟨cap, p, -, hstep⟩ | ⟨-, rfl⟩ | ⟨payload, -, rfl⟩ | ⟨f, -, rfl⟩ | ⟨-, rfl⟩ | ⟨-, rfl⟩ := hcall
    · exact stepRequest_faultsPrecisely hs hstep
    · split
      · exact raise_faultsPrecisely _ s
      · exact .of_no_fault hs
    · exact .of_no_fault (by rw [send_fault, hs])
    · exact .of_no_fault hs
    · exact beginCall_faultsPrecisely hs
    · exact endCall_faultsPrecisely hs
  · exact constructCall_faultsPrecisely pin tb s

end Precise

/-- Settles O30: a move either raises no fault or writes the fault register alone, beside the environment's choices. -/
theorem faultsArePrecise : Obligations.FaultsArePrecise := by
  intro s t hfault h hraised
  have hturn : s.afterTurn.fault = .none := hfault
  have hprecise : s.afterTurn.FaultsPrecisely t := by
    obtain ⟨-, hcall⟩ | ⟨-, hengine⟩ := step_cases h
    · obtain ⟨-, w, -, rfl⟩ | ⟨-, -, rfl⟩ | ⟨-, i, rest, -, hexec⟩ := hcall
      · exact resume_faultsPrecisely hturn w
      · exact .of_no_fault hturn
      · exact exec_faultsPrecisely (s := s.afterTurn.consume rest) hturn hexec
    · obtain ⟨cap, -, hinvoke⟩ | ⟨-, rfl⟩ | ⟨-, rfl⟩ | ⟨-, rfl⟩ | ⟨-, rfl⟩ := hengine
      · exact engineInvoke_faultsPrecisely hturn hinvoke
      · exact .of_no_fault (by rw [sendSegment_fault, hturn])
      · exact .of_no_fault (by rw [settle_fault, hturn])
      · exact .of_no_fault (by rw [doneEvent_fault, hturn])
      · exact txFail_faultsPrecisely hturn
  exact machineView_eq_iff.1 (hprecise hraised)

/-! ### RESET in flight -/

/-- Settles O28: while a packet is in flight RESET raises its fault before it touches the block. -/
theorem resetInFlightRaises : Obligations.ResetInFlightRaises :=
  fun _ hfault hflight => guarded_eq_next.2 ⟨hfault, congrArg _ (if_pos hflight)⟩

/-! ### Construction -/

section Construction
variable {s : State} {pin : BitVec 32} {tb : Byte}

theorem exec_construct_of_config_refused (h : configOk tb s.impl.ratios = false) :
    exec (.construct pin tb) s = .next (s.raise .configInvalid) :=
  congrArg _ (if_pos h)

/-- An admitted construction does as the allocation answers (spec/60_exceptions.md R222). -/
theorem exec_construct_of_configOk (h : configOk tb s.impl.ratios = true) :
    exec (.construct pin tb) s =
      .next (if s.nextFail then s.afterFail.raise .allocFail else s.afterFail.fresh pin tb) :=
  congrArg _ (if_neg (by simp [h]))

/-- A construction leaves a block exactly where it leaves no fault (spec/60_exceptions.md R222). -/
theorem constructCall_blockExists_iff :
    (s.constructCall pin tb).blockExists = true ↔ (s.constructCall pin tb).fault = .none := by
  obtain ⟨-, h⟩ | ⟨-, -, h⟩ | ⟨-, -, h⟩ := constructCall_cases pin tb s <;> simp [State.blockExists, h]

end Construction

/-- Settles O32: with the documented ratios the configuration is refused exactly for TB below 2. -/
theorem constructionFaults : Obligations.ConstructionFaults := by
  intro pin tb s hratios
  have hconfig : configOk tb s.impl.ratios = true ↔ 2 ≤ tb.toNat := hratios ▸ configOk_defaultRatios_iff tb
  refine ⟨fun htb => ?_, fun htb hfail => ?_, fun htb hfail => ?_, fun t h => ?_⟩
  · exact exec_construct_of_config_refused (by rw [← Bool.not_eq_true, hconfig]; omega)
  · exact ⟨_, exec_construct_of_configOk (hconfig.2 htb), by rw [if_pos hfail, raise_fault]⟩
  · exact ⟨_, exec_construct_of_configOk (hconfig.2 htb), by simp [hfail]⟩
  · obtain rfl := Host.Outcome.next.inj h
    exact constructCall_blockExists_iff

/-- The machine right after reset has ended normally (spec/70_reset_and_hazards.md R253). -/
theorem reset_normalEnd : State.reset.normalEnd := ⟨rfl, rfl, rfl, rfl⟩

/-- Settles O33: a construction that succeeds answers the fresh machine, and the machine right after reset is one with
TB = 70. -/
theorem constructionState : Obligations.ConstructionState := by
  refine ⟨fun pin tb s hconfig hfail => ?_, fun s => exec_reset_of_not_inFlight, rfl, rfl, rfl, defaultProfile, rfl, rfl,
    rfl, reset_normalEnd⟩
  have hexec : exec (.construct pin tb) s = .next (s.afterFail.fresh pin tb) := by
    simp [exec_construct_of_configOk hconfig, hfail]
  exact ⟨_, hexec, by simp [Block.initial]⟩

/-! ### end's first part -/

theorem afterDummy_of_cons {s : State} {x : List Symbol} {xs : List (List Symbol)} (h : s.dummies = x :: xs) :
    s.afterDummy = { s with dummies := xs } := by
  simp [State.afterDummy, h]

/-- Past the end of the listed contents a free value is drawn (log 5). -/
theorem afterDummy_of_nil {s : State} (h : s.dummies = []) : s.afterDummy = { s with seq := s.seq + 1 } := by
  simp [State.afterDummy, h]

theorem nextDummy_of_nil {s : State} (h : s.dummies = []) : s.nextDummy = Config.freeDummy s.seq := by
  simp [State.nextDummy, h]

/-- Settles O44: the dummy's content is the list's next one, and past its end a free value. -/
theorem endStartsDummy : Obligations.EndStartsDummy := by
  intro s hfault hbegun hflight
  rw [exec_end_of_ready hfault hbegun hflight, State.startDummy]
  constructor
  · intro x xs hdummies
    rw [afterDummy_of_cons hdummies, nextDummy_of_cons hdummies]
  · intro hdummies
    rw [afterDummy_of_nil hdummies, nextDummy_of_nil hdummies]

/-! ### setRandom's packed operand -/

/-- Settles O8: the packed operand is the two nibbles one above the other. -/
theorem packedMaskIndex : Obligations.PackedMaskIndex := by
  intro mask index
  rw [packMaskIndex_eq_append]
  constructor
  · rw [BitVec.extractLsb'_append_eq_of_le (by decide), BitVec.extractLsb'_eq_self]
  · rw [BitVec.extractLsb'_append_eq_of_add_le (by decide), BitVec.extractLsb'_eq_self]

end Sys2Proof.Machine
